-- ==== Sys2Proof/Word.lean ====
section
/-! DEFINITION. The word types of DCTBE. The registers are 32 bits wide (R20), a command is one 32-bit word (R56),
and a buffer word, a ROM entry and the RESULT pair each hold one 64-bit binary64 encoding (R10). -/

namespace Sys2Proof

/-- One byte of a host bus access (R39). -/
abbrev Byte := BitVec 8

/-- A 32-bit register, a command word, or one half of a buffer word (R20, R34, R56). -/
abbrev Word := BitVec 32

/-- One IEEE 754 binary64 value, identified with its 64-bit encoding (R10). -/
abbrev F64 := BitVec 64

end Sys2Proof
end

