-- ==== Sys2Proof/Syntax.lean ====
section
/-! DEFINITION. The commands of DCTBE, its counterpart of instructions: one constructor for each row of
`spec/opcode_table.json` (R57). -/

namespace Sys2Proof

/-- The source buffer that the snapshot copies at acceptance, the SRC bit (R59). -/
inductive BufSel where
  /-- SRC = 0 -/
  | ibuf
  /-- SRC = 1 -/
  | obuf
  deriving DecidableEq, Repr

/-- A command with its operand fields. A size field `sza` or `szb` holds the base-2 logarithm of a size (R58), and
`idx` is the table index, not scaled (R60). -/
inductive Instr where
  /-- `FWD N[, OBUF]`, N = 2^sza (R75) -/
  | fwd (sza : Nat) (src : BufSel)
  /-- `INV N[, OBUF]`, N = 2^sza (R76) -/
  | inv (sza : Nat) (src : BufSel)
  /-- `DOWN M, T[, OBUF]`, M = 2^sza, T = 2^szb (R82) -/
  | down (sza szb : Nat) (src : BufSel)
  /-- `UP T, M[, OBUF]`, T = 2^sza, M = 2^szb (R83) -/
  | up (sza szb : Nat) (src : BufSel)
  /-- `RDRS FROM, TO, I`, from = 2^sza, to = 2^szb (R67) -/
  | rdrs (sza szb idx : Nat)
  /-- `RDBF N, I`, n = 2^sza (R68) -/
  | rdbf (sza idx : Nat)
  deriving DecidableEq, Repr

end Sys2Proof
end

