-- ==== Sys2Proof/WellFormed.lean ====
section
/-! DEFINITION. Which commands have an encoding: a size field is 4 bits and IDX is 8 bits (R56). A size field of 9 to
15 is well-formed: it is encodable and rejected when the command runs (R58). -/

namespace Sys2Proof

/-- A size field fits its 4 bits (R56, R58). -/
def sizeFits (l : Nat) : Bool := l < 16

/-- A table index fits its 8 bits (R56, R60). -/
def indexFits (i : Nat) : Bool := i < 256

/-- Every operand fits the field that R56 gives it. -/
def Instr.wellFormed : Instr → Bool
  | .fwd sza _ => sizeFits sza
  | .inv sza _ => sizeFits sza
  | .down sza szb _ => sizeFits sza && sizeFits szb
  | .up sza szb _ => sizeFits sza && sizeFits szb
  | .rdrs sza szb idx => sizeFits sza && sizeFits szb && indexFits idx
  | .rdbf sza idx => sizeFits sza && indexFits idx

end Sys2Proof
end

