-- ==== Sys2Proof/Decode.lean ====
section
/-! DEFINITION. The decoder of R62, total on all command words and on any bytes, which rejects by name, and after it
the encoder, both from the table of R61. -/

namespace Sys2Proof

/-- The fields of a command word (R56). -/
structure Fields where
  op : BitVec 4
  sza : BitVec 4
  szb : BitVec 4
  idx : BitVec 8
  src : BitVec 1
  reserved : BitVec 11
  deriving DecidableEq, Repr

/-- Cut a command word into its fields (R56). -/
def fieldsOf (w : Word) : Fields where
  op := w.extractLsb' 0 4
  sza := w.extractLsb' 4 4
  szb := w.extractLsb' 8 4
  idx := w.extractLsb' 12 8
  src := w.extractLsb' 20 1
  reserved := w.extractLsb' 21 11

/-- The buffer that a SRC bit selects (R59). -/
def BufSel.ofBit (b : BitVec 1) : BufSel := if b = 0#1 then .ibuf else .obuf

/-- A row of R61's table, named by its command. -/
inductive Opcode where
  | fwd
  | inv
  | down
  | up
  | rdrs
  | rdbf
  deriving DecidableEq, Repr

/-- The rows in the table's order (R61). -/
def Opcode.all : List Opcode := [.fwd, .inv, .down, .up, .rdrs, .rdbf]

/-- The row's `match` column (R61). -/
def Opcode.pattern : Opcode → Word
  | .fwd => 0x00000001#32
  | .inv => 0x00000002#32
  | .down => 0x00000003#32
  | .up => 0x00000004#32
  | .rdrs => 0x00000005#32
  | .rdbf => 0x00000006#32

/-- The row's `mask` column (R61). -/
def Opcode.mask : Opcode → Word
  | .fwd => 0xFFEFFF0F#32
  | .inv => 0xFFEFFF0F#32
  | .down => 0xFFEFF00F#32
  | .up => 0xFFEFF00F#32
  | .rdrs => 0xFFF0000F#32
  | .rdbf => 0xFFF00F0F#32

/-- `(word AND mask) = match` (R61). -/
def Opcode.accepts (o : Opcode) (w : Word) : Bool := w &&& o.mask == o.pattern

/-- `r.command(SZA, SZB, IDX, SRC)` of R62: the row's command with the operands it uses. -/
def Opcode.command (o : Opcode) (f : Fields) : Instr :=
  match o with
  | .fwd => .fwd f.sza.toNat (BufSel.ofBit f.src)
  | .inv => .inv f.sza.toNat (BufSel.ofBit f.src)
  | .down => .down f.sza.toNat f.szb.toNat (BufSel.ofBit f.src)
  | .up => .up f.sza.toNat f.szb.toNat (BufSel.ofBit f.src)
  | .rdrs => .rdrs f.sza.toNat f.szb.toNat f.idx.toNat
  | .rdbf => .rdbf f.sza.toNat f.idx.toNat

/-- Why a word is illegal (R57, R61). All three end in IllegalCommand when the command completes. -/
inductive Reject where
  /-- OP is 0x0 or 0x7 to 0xF (R57). -/
  | reservedOp
  /-- One of the bits 31:21 is not 0 (R56). -/
  | reservedBits
  /-- A field that the command does not use is not 0 (R61). -/
  | unusedField
  /-- Not the four bytes of one command word (R56); only `decodeBytes` answers this. -/
  | notOneWord
  deriving DecidableEq, Repr

/-- The reason a word that no row accepts is rejected, the first of R61's conditions that it breaks. -/
def rejectReason (w : Word) : Reject :=
  let f := fieldsOf w
  if f.op = 0#4 ∨ 7#4 ≤ f.op then .reservedOp
  else if f.reserved ≠ 0#11 then .reservedBits
  else .unusedField

/-- R62's decoder. It looks at no state. -/
def decode (w : Word) : Except Reject Instr :=
  match Opcode.all.find? (fun o => o.accepts w) with
  | some o => .ok (o.command (fieldsOf w))
  | none => .error (rejectReason w)

/-- A word is well-formed when the decoder names a command for it (R61). -/
def wellFormedWord (w : Word) : Bool :=
  match decode w with
  | .ok _ => true
  | .error _ => false

/-- Decode a list of bytes, the first at the lowest address: a command is the four bytes of one 32-bit write, least
significant byte first (R39, R56). -/
def decodeBytes : List Byte → Except Reject Instr
  | [b0, b1, b2, b3] => decode (b3 ++ b2 ++ b1 ++ b0)
  | _ => .error .notOneWord

/-! ### The encoder -/

/-- The SRC bit of a buffer (R59). -/
def BufSel.bit : BufSel → BitVec 1
  | .ibuf => 0#1
  | .obuf => 1#1

/-- Put a command word together from its fields (R56). -/
def Fields.word (f : Fields) : Word :=
  f.reserved ++ f.src ++ f.idx ++ f.szb ++ f.sza ++ f.op

/-- The fields of a command: OP from R57, the fields it uses, and 0 in every other (R61). -/
def Instr.fields : Instr → Fields
  | .fwd sza src => ⟨1#4, BitVec.ofNat 4 sza, 0#4, 0#8, src.bit, 0#11⟩
  | .inv sza src => ⟨2#4, BitVec.ofNat 4 sza, 0#4, 0#8, src.bit, 0#11⟩
  | .down sza szb src => ⟨3#4, BitVec.ofNat 4 sza, BitVec.ofNat 4 szb, 0#8, src.bit, 0#11⟩
  | .up sza szb src => ⟨4#4, BitVec.ofNat 4 sza, BitVec.ofNat 4 szb, 0#8, src.bit, 0#11⟩
  | .rdrs sza szb idx => ⟨5#4, BitVec.ofNat 4 sza, BitVec.ofNat 4 szb, BitVec.ofNat 8 idx, 0#1, 0#11⟩
  | .rdbf sza idx => ⟨6#4, BitVec.ofNat 4 sza, 0#4, BitVec.ofNat 8 idx, 0#1, 0#11⟩

/-- The command word of a command (R56, R61). -/
def encode (i : Instr) : Word := i.fields.word

/-- The row of R61's table that a command belongs to. -/
def Instr.opcode : Instr → Opcode
  | .fwd _ _ => .fwd
  | .inv _ _ => .inv
  | .down _ _ _ => .down
  | .up _ _ _ => .up
  | .rdrs _ _ _ => .rdrs
  | .rdbf _ _ => .rdbf

/-- The four bytes of a word, least significant first (R39). -/
def bytesOfWord (w : Word) : List Byte :=
  [w.extractLsb' 0 8, w.extractLsb' 8 8, w.extractLsb' 16 8, w.extractLsb' 24 8]

/-- The command word that the opcode table's numbering gives: bit 0 is the least significant bit, and the bits above
`nbits` are 0. -/
def tableWord (nbits w : Nat) : Word := BitVec.ofNat 32 (w % 2 ^ nbits)

/-- What the decoder reads from a row of the opcode table, laid out as the four bytes of its CMD write. -/
def decodeTableWord (nbits w : Nat) : Option Instr :=
  match decodeBytes (bytesOfWord (tableWord nbits w)) with
  | .ok i => some i
  | .error _ => none

end Sys2Proof
end

