-- ==== Sys2Proof/Config.lean ====
section
/-! DEFINITION. What is fixed for every DCTBE (R7's fixed rows, the constant registers, the window's map) and the values
the spec leaves open (`NAN_CHOICE` and the reads while BUSY), as constants without a body.

The other three OPEN rows of R7 are no constants here: `BASE` is an argument (`Machine/HostProgram.lean`), `LATENCY` is
the place of the engine's turn in the schedule that State holds, and `HOSTS` is any number of master numbers. -/

namespace Sys2Proof.Config

/-- The base-2 logarithm of MAXN = 256, the largest supported size (R6, R7). -/
abbrev maxLog : Nat := 8

/-- The base-2 logarithm of the direct resample stage ratio 8 (R7). -/
abbrev stageLog : Nat := 3

/-- The window is 0x4000 bytes (R7, R38). -/
abbrev windowSize : Nat := 0x4000

/-- IBUF starts at offset 0x1000 (R45). -/
abbrev ibufBase : Nat := 0x1000

/-- OBUF starts at offset 0x2000 (R45). -/
abbrev obufBase : Nat := 0x2000

/-- A buffer is 256 words of 8 bytes (R33, R45). -/
abbrev bufBytes : Nat := 0x800

/-- The constant register ID, "DCTB" (R27). -/
def idValue : Word := 0x44435442#32

/-- The constant register CAPS: the sizes 1 to 256 and the stage ratio 8 (R30). -/
def capsValue : Word := 0x000301FF#32

/-- Which half-size transform of the recursion an operation belongs to: `A` or `B` of R73 and R74. -/
inductive Branch where
  | evenHalf
  | oddHalf
  deriving DecidableEq, Repr

/-- The arithmetic operations that the pseudocode writes, each under the place it stands at. -/
inductive OpKind where
  /-- `a[i] <- fadd(v[i], v[n-1-i])` (R73) -/
  | sum
  /-- `fsub(v[i], v[n-1-i])` (R73) -/
  | diff
  /-- `fmul(fsub(..), BF(n, i))` (R73) -/
  | twiddle
  /-- `out[2i+1] <- fadd(B[i], B[i+1])` (R73) -/
  | fold
  /-- `beta[j] <- fadd(X[2j-1], X[2j+1])` (R74) -/
  | unfold
  /-- `t <- fmul(B[i], BF(n, i))` (R74) -/
  | retwiddle
  /-- `out[i] <- fadd(A[i], t)` (R74) -/
  | plus
  /-- `out[n-1-i] <- fsub(A[i], t)` (R74) -/
  | minus
  /-- FWD's final scaling (R75) -/
  | scale
  /-- the first resample stage (R79, R80) -/
  | stageOne
  /-- the second resample stage of ratio 64 (R81) -/
  | stageTwo
  deriving DecidableEq, Repr

/-- One operation of one command's expression tree: the recursion's path to its level (innermost branch first), what
it is, and its element. Two operations of one command never have the same site. -/
structure OpSite where
  path : List Branch
  op : OpKind
  index : Nat
  deriving DecidableEq, Repr

/-- FREE VALUE, `NAN_CHOICE` (R7, R12): 64 unconstrained bits for each operation of each command, from which the NaN
encoding of an arithmetic NaN result is made. The first argument is State's counter of draws. Assumption 1. -/
opaque nanChoice : Nat → OpSite → F64

/-- FREE VALUE (R108): what a host read of OBUF, RESULT_LO or RESULT_HI returns while BUSY = 1, 64 unconstrained bits
for each draw. The argument is State's counter of draws. Assumption 2. -/
opaque busyRead : Nat → F64

end Sys2Proof.Config
end

