-- ==== Sys2Proof/Machine/State.lean ====
section
/-! DEFINITION. The state of DCTBE (R16) as plain data, the ways a step can stop, and the state after reset (R103).

The ROMs, ID and CAPS are constants that nothing can write (R27, R30, R35): `Machine/Rom.lean` and `Config.lean` hold
them. IRQ is a function of this state and no storage (R32): `Machine/Flags.lean`. -/

namespace Sys2Proof.Machine

/-- The errors a command can end with (R87). -/
inductive CmdError where
  | unsupportedSize
  | indexOutOfRange
  | unsupportedRatio
  | unsupportedResampleRatio
  | illegalCommand
  deriving DecidableEq, Repr

/-- The three model faults (R90). They are recorded in State's fault set; none of them ends a run of the model. -/
inductive ModelFault where
  | busError
  | uninitRead
  | uninitOperand
  deriving DecidableEq, Repr

/-- The fault set of R90: which of the three model faults have been recorded. -/
structure FaultSet where
  busError : Bool
  uninitRead : Bool
  uninitOperand : Bool
  deriving DecidableEq, Repr

/-- The STATUS register by its fields (R22 to R26); the reserved bits 31:17 hold nothing (R31). -/
structure Status where
  busy : Bool
  done : Bool
  err : Bool
  werr : Bool
  errcode : BitVec 4
  olen : BitVec 9
  deriving DecidableEq, Repr

/-- Bytes at addresses: the marked bytes of the buffers, strictly rising in address. A byte that is not listed holds no
value: its initialisation mark is clear (R34). -/
abbrev Memory := List Host.Cell

/-- The canonical form of a memory: addresses strictly rising. (An unlisted address reads as no value, so no entry can
equal what it reads as.) -/
abbrev Memory.wf (m : Memory) : Prop := m.Pairwise (fun x y => x.1 < y.1)

/-- One turn of the total order in which host accesses and completion steps happen (R49). The list of the turns to come
stands in State and is the outside world's part: the host's accesses, the platform's reset, and when the engine moves. -/
inductive Event where
  /-- `MemRead(a, w)` of a master: `a` is the byte offset from BASE, `w` the width in bytes (R38). -/
  | read (master a w : Nat)
  /-- `MemWrite(a, w, v)` of a master; a 32-bit write uses `v[31:0]` (R38). -/
  | write (master a w : Nat) (v : F64)
  /-- The platform asserts reset (R102). -/
  | reset
  /-- The engine's turn: it completes the pending command, if there is one (R92). -/
  | engine
  deriving DecidableEq, Repr

/-- What a host access is answered with. -/
inductive Answer where
  /-- A read's value, zero-extended to 64 bits (R46). -/
  | data (v : F64)
  /-- A write was taken, whatever effect it had (R47). -/
  | written
  /-- The bus error response of a refused access (R41). -/
  | busError
  /-- A read of an unmarked half: some bit pattern that the model does not choose (R34, R90). -/
  | noValue
  deriving DecidableEq, Repr

/-- An answer, with the master that it goes to (R41). -/
structure Response where
  master : Nat
  answer : Answer
  deriving DecidableEq, Repr

/-- The state of DCTBE. The last three fields are the model's own: what is still to come from outside, what the masters
were answered, and the count of free values drawn. -/
structure State where
  /-- CTRL.IE; CTRL's bits 31:1 are reserved and hold nothing (R21) -/
  ie : Bool
  /-- STATUS (R22 to R26) -/
  status : Status
  /-- CMD, the last accepted command word (R28); while BUSY it is the pending command (R37) -/
  cmd : Word
  /-- RESULT_LO (R29) -/
  resultLo : Word
  /-- RESULT_HI (R29) -/
  resultHi : Word
  /-- IBUF and OBUF with their initialisation marks, by byte offset in the window (R33, R34, R45) -/
  mem : Memory
  /-- SNAP with its marks, by byte offset in the buffer it copies (R36) -/
  snap : Memory
  /-- the recorded model faults (R90, R103) -/
  faults : FaultSet
  /-- the turns to come, the next one first -/
  script : List Event
  /-- the answers given to host accesses, the newest first -/
  responses : List Response
  /-- how many times free values were drawn -/
  draws : Nat
  deriving DecidableEq, Repr

/-- Why a step stops. -/
inductive Fault where
  /-- Raised by a host access at an offset of 0x4000 or more, in `hostAccess`. Such an address does not belong to DCTBE,
  and "What they do is the platform's affair" (R45). SAFE: the model stops and says nothing of the platform. -/
  | outsideWindow
  deriving DecidableEq, Repr

/-- Why an instruction has no meaning. -/
inductive Refusal where
  /-- Raised by an arm of `exec` whose command has no meaning yet; no arm does. SAFE: the model says nothing of it. -/
  | notModelled (mnemonic : String)
  deriving DecidableEq, Repr

/-- STATUS after reset: 0x00000000 (R103). -/
def Status.reset : Status where
  busy := false
  done := false
  err := false
  werr := false
  errcode := 0#4
  olen := 0#9

/-- No fault recorded: the fault set at power-on (R103). -/
def FaultSet.empty : FaultSet := ⟨false, false, false⟩

/-- The state after a power-on reset (R103), with nothing to come from outside and nothing answered yet. -/
def State.reset : State where
  ie := false
  status := Status.reset
  cmd := 0#32
  resultLo := 0#32
  resultHi := 0#32
  mem := []
  snap := []
  faults := FaultSet.empty
  script := []
  responses := []
  draws := 0

end Sys2Proof.Machine
end

