-- ==== Sys2Proof/Machine/Flags.lean ====
section
/-! DEFINITION. Every computation on the status flags, the words that STATUS and CTRL read as, and IRQ. -/

namespace Sys2Proof.Machine

/-- ERRCODE of an error (R87). -/
def CmdError.code : CmdError → BitVec 4
  | .unsupportedSize => 1#4
  | .indexOutOfRange => 2#4
  | .unsupportedRatio => 3#4
  | .unsupportedResampleRatio => 4#4
  | .illegalCommand => 5#4

/-- One flag as one bit. -/
def flagBit (b : Bool) : BitVec 1 := if b then 1#1 else 0#1

/-- The word that STATUS reads as (R22). -/
def Status.word (t : Status) : Word :=
  0#15 ++ t.olen ++ t.errcode ++ flagBit t.werr ++ flagBit t.err ++ flagBit t.done ++ flagBit t.busy

/-- Acceptance clears DONE, ERR and ERRCODE and sets BUSY; WERR and OLEN stay (R91). -/
def Status.accept (t : Status) : Status :=
  { t with done := false, err := false, errcode := 0#4, busy := true }

/-- A completion without an error sets OLEN and DONE and clears BUSY (R26, R92). -/
def Status.succeed (t : Status) (n : Nat) : Status :=
  { t with olen := BitVec.ofNat 9 n, done := true, busy := false }

/-- A completion with an error sets ERR and ERRCODE and clears BUSY; OLEN stays (R24, R92). -/
def Status.fail (t : Status) (e : CmdError) : Status :=
  { t with err := true, errcode := e.code, busy := false }

/-- A CMD or IBUF write that arrives while BUSY sets WERR (R25). -/
def Status.writeDropped (t : Status) : Status := { t with werr := true }

/-- A host write of `v` to STATUS: bits 1, 2 and 3 clear DONE, ERR with ERRCODE, and WERR; every other bit is ignored
(R22 to R26). -/
def Status.clearBits (t : Status) (v : Word) : Status :=
  { t with
    done := t.done && !v.getLsbD 1
    err := t.err && !v.getLsbD 2
    errcode := if v.getLsbD 2 then 0#4 else t.errcode
    werr := t.werr && !v.getLsbD 3 }

/-- The word that CTRL reads as (R21). -/
def State.ctrlWord (s : State) : Word := 0#31 ++ flagBit s.ie

/-- The level output IRQ = CTRL.IE AND (DONE OR ERR) (R32). -/
def State.irq (s : State) : Bool := s.ie && (s.status.done || s.status.err)

/-- Whether a model fault is in the fault set (R90). -/
def FaultSet.has (f : FaultSet) : ModelFault → Bool
  | .busError => f.busError
  | .uninitRead => f.uninitRead
  | .uninitOperand => f.uninitOperand

/-- Record a model fault (R90). -/
def FaultSet.record (f : FaultSet) : ModelFault → FaultSet
  | .busError => { f with busError := true }
  | .uninitRead => { f with uninitRead := true }
  | .uninitOperand => { f with uninitOperand := true }

end Sys2Proof.Machine
end

