-- ==== Sys2Proof/Machine/Ops.lean ====
section
/-! DEFINITION. The named operations over memory and over the state's fields: byte order and initialisation marks once,
one update per field, acceptance, and the ways a command ends. -/

namespace Sys2Proof.Machine

/-! ### Memory -/

/-- The byte at an address; `none` where its initialisation mark is clear (R34). -/
def Memory.byte (m : Memory) (a : Nat) : Option Byte := (m.find? (fun c => c.1 == a)).map (·.2)

/-- The cells of a run of bytes, the first at address `a`. -/
def cellsAt : Nat → List Byte → Memory
  | _, [] => []
  | a, b :: bs => (a, b) :: cellsAt (a + 1) bs

/-- Store a run of bytes at address `a`, marks included: the one write to a memory. -/
def Memory.store (m : Memory) (a : Nat) (bs : List Byte) : Memory :=
  m.filter (fun c => c.1 < a) ++ cellsAt a bs ++ m.filter (fun c => a + bs.length ≤ c.1)

/-- The 32-bit half at address `a`, little-endian (R39); `none` where its mark is clear (R34). -/
def Memory.half (m : Memory) (a : Nat) : Option Word :=
  match m.byte a, m.byte (a + 1), m.byte (a + 2), m.byte (a + 3) with
  | some b0, some b1, some b2, some b3 => some (b3 ++ b2 ++ b1 ++ b0)
  | _, _, _, _ => none

/-- The 64-bit word at address `a`: the low half at +0 and the high half at +4 (R39); `none` where a mark is clear. -/
def Memory.word (m : Memory) (a : Nat) : Option F64 :=
  match m.half a, m.half (a + 4) with
  | some lo, some hi => some (hi ++ lo)
  | _, _ => none

/-- The bytes of a 32-bit half, the least significant first (R39). -/
def halfBytes (v : Word) : List Byte :=
  [v.extractLsb' 0 8, v.extractLsb' 8 8, v.extractLsb' 16 8, v.extractLsb' 24 8]

/-- Bits 31:0 of an encoding (R29, R39). -/
def lowHalf (v : F64) : Word := v.extractLsb' 0 32

/-- Bits 63:32 of an encoding (R29, R39). -/
def highHalf (v : F64) : Word := v.extractLsb' 32 32

/-- The bytes of a 64-bit word, the least significant first (R39). -/
def wordBytes (v : F64) : List Byte := halfBytes (lowHalf v) ++ halfBytes (highHalf v)

/-- The cells of the run of `len` addresses from `base` on, renumbered from 0: a copy of a buffer with its marks (R36). -/
def Memory.slice (m : Memory) (base len : Nat) : Memory :=
  (m.filter (fun c => base ≤ c.1 && c.1 < base + len)).map (fun c => (c.1 - base, c.2))

/-! ### One update per field of State -/

def State.setIe (s : State) (b : Bool) : State := { s with ie := b }

def State.setStatus (s : State) (t : Status) : State := { s with status := t }

def State.setCmd (s : State) (w : Word) : State := { s with cmd := w }

/-- Write RESULT_LO and RESULT_HI from one encoding (R29). -/
def State.setResult (s : State) (v : F64) : State := { s with resultLo := lowHalf v, resultHi := highHalf v }

def State.setMem (s : State) (m : Memory) : State := { s with mem := m }

def State.setSnap (s : State) (m : Memory) : State := { s with snap := m }

/-- Record a model fault in the fault set (R90). -/
def State.recordFault (s : State) (f : ModelFault) : State := { s with faults := s.faults.record f }

def State.setScript (s : State) (es : List Event) : State := { s with script := es }

/-- Answer a host access (R41, R46). -/
def State.respond (s : State) (master : Nat) (x : Answer) : State :=
  { s with responses := ⟨master, x⟩ :: s.responses }

/-- Count one draw of free values, so that the next draw is independent of it (R12, R108). -/
def State.nextDraw (s : State) : State := { s with draws := s.draws + 1 }

/-! ### Acceptance, and how a command ends -/

/-- The offset of a buffer (R45). -/
def bufferBase : BufSel → Nat
  | .ibuf => Config.ibufBase
  | .obuf => Config.obufBase

/-- The buffer that bit 20 of a command word selects (R36, R91). -/
def sourceOf (w : Word) : BufSel := if w.getLsbD 20 then .obuf else .ibuf

/-- Acceptance of the word `w` (R91): CMD, the snapshot with its marks, and the flags. It does not decode `w`. -/
def State.accept (s : State) (w : Word) : State :=
  ((s.setCmd w).setSnap (s.mem.slice (bufferBase (sourceOf w)) Config.bufBytes)).setStatus s.status.accept

/-- `raise e` inside a command, the counterpart of taking an exception (R15, R86, R92): it writes STATUS and nothing
else. -/
def raiseError (e : CmdError) (s : State) : State := s.setStatus (s.status.fail e)

/-- A host write to STATUS, the counterpart of the return from an exception (R95): it clears the flags that are written
as 1, and nothing was saved that it would restore. -/
def acknowledge (v : Word) (s : State) : State := s.setStatus (s.status.clearBits v)

/-- A successful FWD, INV, DOWN or UP: `xs` goes to OBUF from word 0 on, OLEN becomes `n`, DONE rises and BUSY falls
(R26, R92). -/
def finishVector (n : Nat) (xs : List F64) (s : State) : State :=
  ((s.setMem (s.mem.store Config.obufBase (xs.flatMap wordBytes))).setStatus (s.status.succeed n)).nextDraw

/-- A successful RDRS or RDBF: `v` goes to the RESULT pair, OLEN becomes 0, DONE rises and BUSY falls (R26, R67). -/
def finishScalar (v : F64) (s : State) : State := (s.setResult v).setStatus (s.status.succeed 0)

/-- The platform's reset (R102, R103): every item of R16 at its reset value. The fault set is kept; so is what is the
model's own, the turns to come, the answers given and the count of draws. -/
def platformReset (s : State) : State :=
  { State.reset with faults := s.faults, script := s.script, responses := s.responses, draws := s.draws }

end Sys2Proof.Machine
end

