-- ==== Sys2Proof/Machine/Bus.lean ====
section
/-! DEFINITION. Host bus accesses: which are admitted (R40), the address map (R20, R45), and what an admitted read and
write do (R46, R47), with the rules for accesses while BUSY (R107, R108). -/

namespace Sys2Proof.Machine

/-- The offset is in IBUF (R45). -/
def inIbuf (a : Nat) : Bool := Config.ibufBase ≤ a && a < Config.ibufBase + Config.bufBytes

/-- The offset is in OBUF (R45). -/
def inObuf (a : Nat) : Bool := Config.obufBase ≤ a && a < Config.obufBase + Config.bufBytes

/-- The admitted accesses of R40: an aligned 32-bit one anywhere in the window, an aligned 64-bit one in a buffer. -/
def admitted (a w : Nat) : Bool :=
  (w == 4 && a % 4 == 0) || (w == 8 && a % 8 == 0 && (inIbuf a || inObuf a))

/-- What stands at an offset of the window (R20, R45). -/
inductive Target where
  | id
  | ctrl
  | status
  | cmd
  | resultLo
  | resultHi
  | caps
  | ibuf
  | obuf
  | reserved
  deriving DecidableEq, Repr

/-- The address map (R20, R45). -/
def targetOf (a : Nat) : Target :=
  if a = 0x000 then .id
  else if a = 0x004 then .ctrl
  else if a = 0x008 then .status
  else if a = 0x00C then .cmd
  else if a = 0x010 then .resultLo
  else if a = 0x014 then .resultHi
  else if a = 0x018 then .caps
  else if inIbuf a then .ibuf
  else if inObuf a then .obuf
  else .reserved

/-- A 32-bit read's data. -/
def wordData (v : Word) : Answer := .data (v.setWidth 64)

/-- The bits that a buffer read of width `w` at offset `a` addresses, zero-extended; `none` where a mark is clear
(R39, R42, R46). -/
def bufferBits (m : Memory) (a w : Nat) : Option F64 :=
  if w = 8 then m.word a else (m.half a).map (·.setWidth 64)

/-- The bytes that a buffer write of width `w` stores (R39, R42). -/
def storeBytes (w : Nat) (v : F64) : List Byte := if w = 8 then wordBytes v else halfBytes (lowHalf v)

/-- The unspecified value of a read while BUSY, of all 2^32 or 2^64 (R108). -/
def unspecified (s : State) (w : Nat) : Answer :=
  if w = 8 then .data (Config.busyRead s.draws) else wordData (lowHalf (Config.busyRead s.draws))

/-- A read that BUSY makes unspecified: a fresh draw (R108). -/
def readUnspecified (master w : Nat) (s : State) : State := (s.respond master (unspecified s w)).nextDraw

/-- A read of the RESULT pair: unspecified while BUSY (R29, R108). -/
def readResult (master : Nat) (v : Word) (s : State) : State :=
  if s.status.busy then readUnspecified master 4 s else s.respond master (wordData v)

/-- A buffer read: the addressed bits, or the model fault UninitRead where a mark is clear (R34, R46). -/
def readBuffer (master a w : Nat) (s : State) : State :=
  match bufferBits s.mem a w with
  | some v => s.respond master (.data v)
  | none => (s.recordFault .uninitRead).respond master .noValue

/-- An OBUF read. While BUSY its value is unspecified (R108), and a clear mark is UninitRead all the same (R34, R90). -/
def readObuf (master a w : Nat) (s : State) : State :=
  if s.status.busy then
    match bufferBits s.mem a w with
    | some _ => readUnspecified master w s
    | none => (readUnspecified master w s).recordFault .uninitRead
  else readBuffer master a w s

/-- A refused access: the bus error response, the model fault, and no other change (R41, R90). -/
def refuseAccess (master : Nat) (s : State) : State := (s.recordFault .busError).respond master .busError

/-- `MemRead(a, w)` (R46). -/
def hostRead (master a w : Nat) (s : State) : State :=
  if !admitted a w then refuseAccess master s
  else match targetOf a with
    | .id => s.respond master (wordData Config.idValue)
    | .ctrl => s.respond master (wordData s.ctrlWord)
    | .status => s.respond master (wordData s.status.word)
    | .cmd => s.respond master (wordData s.cmd)
    | .resultLo => readResult master s.resultLo s
    | .resultHi => readResult master s.resultHi s
    | .caps => s.respond master (wordData Config.capsValue)
    | .ibuf => readBuffer master a w s
    | .obuf => readObuf master a w s
    | .reserved => s.respond master (wordData 0#32)

/-- An IBUF write: stored with its marks, or dropped with WERR while BUSY (R42, R47, R107). -/
def writeIbuf (a w : Nat) (v : F64) (s : State) : State :=
  if s.status.busy then s.setStatus s.status.writeDropped
  else s.setMem (s.mem.store a (storeBytes w v))

/-- A CMD write: an acceptance, or dropped with WERR while BUSY (R28, R47, R107). -/
def writeCmd (v : Word) (s : State) : State :=
  if s.status.busy then s.setStatus s.status.writeDropped else s.accept v

/-- The effect of an admitted write on the state (R47). -/
def writeTarget (a w : Nat) (v : F64) (s : State) : State :=
  match targetOf a with
  | .ibuf => writeIbuf a w v s
  | .ctrl => s.setIe ((lowHalf v).getLsbD 0)
  | .status => acknowledge (lowHalf v) s
  | .cmd => writeCmd (lowHalf v) s
  | .id => s
  | .resultLo => s
  | .resultHi => s
  | .caps => s
  | .obuf => s
  | .reserved => s

/-- `MemWrite(a, w, v)` (R47). -/
def hostWrite (master a w : Nat) (v : F64) (s : State) : State :=
  if !admitted a w then refuseAccess master s
  else (writeTarget a w v s).respond master .written

/-- A host access, if its offset is in the window; an address outside it does not belong to DCTBE (R38, R45). -/
def hostAccess (a : Nat) (s : State) : Host.Outcome State Fault Refusal :=
  if Config.windowSize ≤ a then .fault .outsideWindow else .next s

end Sys2Proof.Machine
end

