-- ==== Sys2Proof/Machine/Float.lean ====
section
/-! DEFINITION. Binary64 arithmetic (R10 to R13): `fadd`, `fsub`, `fmul` with roundTiesToEven, subnormals kept.

Every finite value is a whole multiple of 2^-1074, so the operations convert to integers in that unit, compute exactly,
and round once at the end. An operation whose IEEE 754 result is a NaN answers the encoding `c` that it is given: its
caller draws it (R12). -/

namespace Sys2Proof

/-- The sign bit (R10). -/
def F64.isNeg (x : F64) : Bool := 2 ^ 63 ≤ x.toNat

/-- The biased exponent, bits 62:52 (R10). -/
def F64.expo (x : F64) : Nat := x.toNat / 2 ^ 52 % 2048

/-- The fraction, bits 51:0 (R10). -/
def F64.frac (x : F64) : Nat := x.toNat % 2 ^ 52

/-- A NaN: the exponent is all ones and the fraction is not 0 (R10). -/
def F64.isNaN (x : F64) : Bool := x.expo == 2047 && x.frac != 0

/-- An infinity (R10). -/
def F64.isInf (x : F64) : Bool := x.expo == 2047 && x.frac == 0

/-- A zero, a subnormal or a normal number (R10). -/
def F64.isFinite (x : F64) : Bool := x.expo != 2047

/-- A zero of either sign (R10). -/
def F64.isZero (x : F64) : Bool := x.expo == 0 && x.frac == 0

/-- The absolute value of a finite encoding, as a multiple of 2^-1074 (R10). -/
def F64.magnitude (x : F64) : Nat :=
  if x.expo = 0 then x.frac else (2 ^ 52 + x.frac) * 2 ^ (x.expo - 1)

/-- The value of a finite encoding, as a multiple of 2^-1074. -/
def F64.value (x : F64) : Int := if x.isNeg then -(x.magnitude : Int) else x.magnitude

/-- An encoding from its sign bit and its bits 62:0. -/
def F64.ofBits (neg : Bool) (low : Nat) : F64 :=
  BitVec.ofNat 64 ((if neg then 2 ^ 63 else 0) + low)

/-- +0.0 (R80). -/
def F64.zero : F64 := 0#64

/-- -0.0. -/
def F64.negZero : F64 := F64.ofBits true 0

/-- Bits 62:0 of an infinity. -/
def infLow : Nat := 2047 * 2 ^ 52

/-- An infinity of the given sign. -/
def F64.inf (neg : Bool) : F64 := F64.ofBits neg infLow

/-- The same value with the other sign. -/
def F64.flip (x : F64) : F64 := x ^^^ F64.negZero

/-- `m / 2^d` rounded to a whole number, ties to the even one. -/
def roundHalfEven (m d : Nat) : Nat :=
  let q := m / 2 ^ d
  let r := m % 2 ^ d
  if 2 ^ d < 2 * r ∨ (2 * r = 2 ^ d ∧ q % 2 = 1) then q + 1 else q

/-- The base-2 logarithm, rounded down, of an `m` below 2^(2^k), by halving the range. -/
def topBit : Nat → Nat → Nat
  | 0, _ => 0
  | k + 1, m => if m < 2 ^ 2 ^ k then topBit k m else 2 ^ k + topBit k (m / 2 ^ 2 ^ k)

/-- The base-2 logarithm, rounded down, in a form that evaluates in few steps; it is `Nat.log2` (`floorLog2_eq`). -/
def floorLog2 (m : Nat) : Nat := if m < 2 ^ 2 ^ 13 then topBit 13 m else m.log2

/-- How many low bits of `m` rounding drops: all but 53, and never fewer than the `u` bits below 2^-1074. -/
def droppedBits (m u : Nat) : Nat := max u (floorLog2 m - 52)

/-- The binary64 value nearest to `± m * 2^(-1074 - u)`, ties to even: the subnormals follow from the fixed unit, and a
magnitude that rounds past the largest finite number is an infinity (R11). -/
def roundPack (neg : Bool) (m u : Nat) : F64 :=
  let d := droppedBits m u
  F64.ofBits neg (min ((d - u) * 2 ^ 52 + roundHalfEven m d) infLow)

/-- Addition of finite values. An exact zero sum is +0 unless both operands are negative (R11). -/
def addFinite (a b : F64) : F64 :=
  let k := a.value + b.value
  if k = 0 then (if a.isNeg && b.isNeg then F64.negZero else F64.zero)
  else roundPack (k < 0) k.natAbs 0

/-- `fadd` (R11, R12). -/
def fadd (c a b : F64) : F64 :=
  if a.isNaN || b.isNaN then c
  else if a.isInf then (if b.isInf && a.isNeg != b.isNeg then c else a)
  else if b.isInf then b
  else addFinite a b

/-- `fsub` (R11, R12): the sum with the second operand's sign changed. -/
def fsub (c a b : F64) : F64 := fadd c a b.flip

/-- `fmul` (R11, R12). -/
def fmul (c a b : F64) : F64 :=
  let neg := a.isNeg != b.isNeg
  if a.isNaN || b.isNaN then c
  else if a.isInf || b.isInf then (if a.isZero || b.isZero then c else F64.inf neg)
  else roundPack neg (a.magnitude * b.magnitude) 1074

/-- `pow2(e)`, the value 2^e for -1074 ≤ e ≤ 1023 (R14). -/
def pow2 (e : Int) : F64 :=
  if -1022 ≤ e then F64.ofBits false ((e + 1023).toNat * 2 ^ 52)
  else F64.ofBits false (2 ^ (e + 1074).toNat)

/-- The NaN encoding that 64 free bits stand for: their sign and fraction, a zero fraction read as 1. Every NaN encoding
is one of these, and nothing else is (R12). -/
def nanOf (bits : F64) : F64 := F64.ofBits bits.isNeg (infLow + max 1 bits.frac)

end Sys2Proof
end

