-- ==== Sys2Proof/Machine/Rom.lean ====
section
/-! DEFINITION. The two ROMs, entry for entry from Tables 4.1, 4.2 and 4.3, which are normative (R64, R65), laid out as
R66 says. They are fixed at manufacture and nothing writes them (R35, R70). -/

namespace Sys2Proof.Machine

/-- Table 4.1, the row n = 2 (R64). -/
def bfTable2 : List F64 :=
  [0x3FE6A09E667F3BCC#64]

/-- Table 4.1, the row n = 4 (R64). -/
def bfTable4 : List F64 :=
  [0x3FE1517A7BDB3895#64, 0x3FF4E7AE9144F0FB#64]

/-- Table 4.1, the row n = 8 (R64). -/
def bfTable8 : List F64 :=
  [0x3FE0503ED17CBA53#64, 0x3FE33E37A1E0173E#64, 0x3FECCC9AEFB18D57#64, 0x400480D9D073B426#64]

/-- Table 4.1, the row n = 16 (R64). -/
def bfTable16 : List F64 :=
  [0x3FE013D19C61D971#64, 0x3FE0B84F03EBE15E#64, 0x3FE22467D1065A74#64, 0x3FE4B2C398BBE3C6#64,
    0x3FE938900B7D4210#64, 0x3FF0F8892A4ECED7#64, 0x3FFB8F24B0406142#64, 0x4014679380E538D4#64]

/-- Table 4.1, the row n = 32 (R64). -/
def bfTable32 : List F64 :=
  [0x3FE004F09436640E#64, 0x3FE02CD16F3ACE41#64, 0x3FE07E8B5B5DB921#64, 0x3FE0FE4D0830706D#64,
    0x3FE1B306F118428C#64, 0x3FE2A7673C047C11#64, 0x3FE3EB8DC44206E3#64, 0x3FE59807A9B3C084#64,
    0x3FE7D33DBAD48055#64, 0x3FEADBF3C99F0119#64, 0x3FEF1F476CD7DAE5#64, 0x3FF2B606A5CBB0C5#64,
    0x3FF7BF23658F321A#64, 0x40007655E3E0A354#64, 0x400B42C833D72DF0#64, 0x40246148BEA939EC#64]

/-- Table 4.1, the row n = 64 (R64). -/
def bfTable64 : List F64 :=
  [0x3FE0013BE8190891#64, 0x3FE00B20E19A936B#64, 0x3FE01F09889C9860#64, 0x3FE03D342EF6DC7A#64,
    0x3FE06600A51B0B68#64, 0x3FE099F32D0618B3#64, 0x3FE0D9B8AB6CE5FD#64, 0x3FE1262C5827349F#64,
    0x3FE1805F4A552D1C#64, 0x3FE1E9A261FCA9F5#64, 0x3FE2639344BCB557#64, 0x3FE2F02D6D15931B#64,
    0x3FE391E0B7191581#64, 0x3FE44BAF745DA5F0#64, 0x3FE52157016EBF79#64, 0x3FE617874A161319#64]
  ++ [0x3FE7342FF4289795#64, 0x3FE87EED9E7AD2EA#64, 0x3FEA01A7D0AE0CC5#64, 0x3FEBC97ADB313D24#64,
    0x3FEDE81BDC14C7FD#64, 0x3FF03B04292F456F#64, 0x3FF1CB0B9C933198#64, 0x3FF3BDC765A57F04#64,
    0x3FF63A8C4D4DBBE4#64, 0x3FF980E914BDF29B#64, 0x3FFDFEAC3D8BB9CD#64, 0x400241A3774F557F#64,
    0x400765A396DF21A3#64, 0x401056A44955C716#64, 0x401B2FDF6B26CFDA#64, 0x40345FB67AC4F290#64]

/-- Table 4.1, the row n = 128 (R64). -/
def bfTable128 : List F64 :=
  [0x3FE0004EF637DE7D#64, 0x3FE002C703575448#64, 0x3FE007B905AD992B#64, 0x3FE00F28D1026A51#64,
    0x3FE0191C2C0CA6D8#64, 0x3FE0259ADB705B07#64, 0x3FE034AEB0A334C2#64, 0x3FE046639CECE094#64,
    0x3FE05AC7C8C868C2#64, 0x3FE071EBAFFCE1DD#64, 0x3FE08BE242D6E84E#64, 0x3FE0A8C10D0231F3#64,
    0x3FE0C8A0629B54EA#64, 0x3FE0EB9B942E96F1#64, 0x3FE111D12A79F92A#64, 0x3FE13B632AEFCB13#64]
  ++ [0x3FE16877662520F3#64, 0x3FE19937D18E23A1#64, 0x3FE1CDD2EE2B3D9E#64, 0x3FE2067C3E181049#64,
    0x3FE2436CCB4AD934#64, 0x3FE284E3C24445D4#64, 0x3FE2CB2723F9636C#64, 0x3FE3168492E96C7E#64,
    0x3FE36752401F638A#64, 0x3FE3BDEFFDDDA01D#64, 0x3FE41AC87EEC82BC#64, 0x3FE47E52CB0E1E59#64,
    0x3FE4E913F304A708#64, 0x3FE55BA11105B0BE#64, 0x3FE5D6A1A587089E#64, 0x3FE65AD2643E7700#64]
  ++ [0x3FE6E9088A3924E7#64, 0x3FE78235DC77C8C4#64, 0x3FE8276D77034CED#64, 0x3FE8D9E99FA5579B#64,
    0x3FE99B12DE539470#64, 0x3FEA6C88B14E7D07#64, 0x3FEB502C4DF03D31#64, 0x3FEC482E040DB62F#64,
    0x3FED571E0CD25F77#64, 0x3FEE8001D56F89AD#64, 0x3FEFC66F3B4E9ABA#64, 0x3FF09757E0A5424D#64,
    0x3FF15EF74D4BE6BB#64, 0x3FF23D3AD26ADF31#64, 0x3FF335FFA5436703#64, 0x3FF44E1316512376#64]
  ++ [0x3FF58B8002F53489#64, 0x3FF6F5FC530D0791#64, 0x3FF897872054E6FD#64, 0x3FFA7D52C7F15EE1#64,
    0x3FFCB9291B98C4D2#64, 0x3FFF639B1CC527E3#64, 0x40014FC91DEBB4BA#64, 0x400350331E43155C#64,
    0x4005DA68B576EB9F#64, 0x40092E00A858CC59#64, 0x400DB8D12F4E86D8#64, 0x40122529738DB2C6#64,
    0x40174F8D8AC87D03#64, 0x40204EC53E7842B3#64, 0x402B2B2817B4D0FD#64, 0x40445F51F094CEE6#64]

/-- Table 4.1, the row n = 256 (R64). -/
def bfTable256 : List F64 :=
  [0x3FE00013BD5114FA#64, 0x3FE000B1AD8F18F5#64, 0x3FE001EDAC80089A#64, 0x3FE003C7F71C0945#64,
    0x3FE00640E8FB368F#64, 0x3FE00958FC80D6A9#64, 0x3FE00D10CB153062#64, 0x3FE011690D6E35EB#64,
    0x3FE016629BE74482#64, 0x3FE01BFE6EE846CB#64, 0x3FE0223D9F5C95E4#64, 0x3FE02921673A037C#64,
    0x3FE030AB221886B7#64, 0x3FE038DC4DDB154C#64, 0x3FE041B68B6A4311#64, 0x3FE04B3B9F8153A0#64]
  ++ [0x3FE0556D738E7C61#64, 0x3FE0604E16A728E6#64, 0x3FE06BDFBE91286E#64, 0x3FE07824C8E1C1BB#64,
    0x3FE0851FBC33C248#64, 0x3FE092D34975B773#64, 0x3FE0A1424D519BAA#64, 0x3FE0B06FD1AF5F3A#64,
    0x3FE0C05F0F53D443#64, 0x3FE0D1136F9DA7BB#64, 0x3FE0E2908E6236A7#64, 0x3FE0F4DA3BEC3724#64,
    0x3FE107F47F1E58A3#64, 0x3FE11BE397BC2E4A#64, 0x3FE130AC00DBEA72#64, 0x3FE146527383AA97#64]
  ++ [0x3FE15CDBE97550CC#64, 0x3FE1744DA02C2B2F#64, 0x3FE18CAD1C0FF38C#64, 0x3FE1A6002BE10227#64,
    0x3FE1C04CEC61E73F#64, 0x3FE1DB99CC430022#64, 0x3FE1F7ED90550782#64, 0x3FE2154F58081692#64,
    0x3FE233C6A23D0DFF#64, 0x3FE2535B526FED04#64, 0x3FE27415B6423ACF#64, 0x3FE295FE8B6D5547#64,
    0x3FE2B91F062539C3#64, 0x3FE2DD80D7F532C8#64, 0x3FE3032E3720C41B#64, 0x3FE32A31E694372E#64]
  ++ [0x3FE352973E715078#64, 0x3FE37C6A3545FEB9#64, 0x3FE3A7B769FC4368#64, 0x3FE3D48C2E942D16#64,
    0x3FE402F693BA86A8#64, 0x3FE433057550DFB2#64, 0x3FE464C887FDD2B0#64, 0x3FE4985067DEF551#64,
    0x3FE4CDAEA878B88B#64, 0x3FE504F5E603B445#64, 0x3FE53E39D83A7B28#64, 0x3FE5798F66CF2DE8#64,
    0x3FE5B70CBFB4ABE2#64, 0x3FE5F6C96F6C86FA#64, 0x3FE638DE7B90E207#64, 0x3FE67D667FD83935#64]
  ++ [0x3FE6C47DCDD8E419#64, 0x3FE70E428FDB1185#64, 0x3FE75AD4EF123C64#64, 0x3FE7AA573DA2DE2B#64,
    0x3FE7FCEE24E6B0C4#64, 0x3FE852C0D871745C#64, 0x3FE8ABF94E6A4337#64, 0x3FE908C47DE2740C#64,
    0x3FE96952A3EB6875#64, 0x3FE9CDD79049082E#64, 0x3FEA368AFABFD2A8#64, 0x3FEAA3A8E22449AA#64,
    0x3FEB1571F67F19BE#64, 0x3FEB8C2C0FCF29FF#64, 0x3FEC0822B33247BB#64, 0x3FEC89A7A8887845#64]
  ++ [0x3FED1113A2FF9700#64, 0x3FED9EC6FF5FD99F#64, 0x3FEE332A9B71F007#64, 0x3FEECEB0CA717998#64,
    0x3FEF71D66B386B8D#64, 0x3FF00E9212D8A19B#64, 0x3FF06897EB17FB3F#64, 0x3FF0C74F17504B4B#64,
    0x3FF12B124B8AF6EA#64, 0x3FF19445AC9EEF9A#64, 0x3FF20358125B4BC7#64, 0x3FF278C47EA80A31#64,
    0x3FF2F513D40E6C5F#64, 0x3FF378DED8864116#64, 0x3FF404D09477F074#64, 0x3FF499A921CF5F3A#64]
  ++ [0x3FF538410406F0BB#64, 0x3FF5E18D289A23C7#64, 0x3FF696A3B7D5A571#64, 0x3FF758C1E9323E8C#64,
    0x3FF829531D4B5169#64, 0x3FF909F99373572D#64, 0x3FF9FC992BE48A18#64, 0x3FFB0364CC71336A#64,
    0x3FFC20EF309DB371#64, 0x3FFD5840357E0793#64, 0x3FFEACF017078E57#64, 0x400011A5532E2F4B#64,
    0x4000E03EAADC4523#64, 0x4001C56A19BE691B#64, 0x4002C505E6CAE022#64, 0x4003E3E06DF8FD66#64]
  ++ [0x400528059259EAC2#64, 0x4006992C3C18F0D5#64, 0x40084154804391B1#64, 0x400A2DB1B2B4DFC8#64,
    0x400C700E979DADB8#64, 0x400F20FD1F122628#64, 0x401131B3D242E8E1#64, 0x4013355369C87D89#64,
    0x4015C2BAEEAA7C46#64, 0x4019198196F7B292#64, 0x401DA77E0B362FB5#64, 0x40221E14ABAA02F5#64,
    0x40274A0C97BF7830#64, 0x40304CCE502723F5#64, 0x403B29FA70A97D5C#64, 0x40545F38CE754DD3#64]

/-- The butterfly ROM, 255 entries: n = 2 first (R66). -/
def butterflyRom : List F64 :=
  bfTable2 ++ bfTable4 ++ bfTable8 ++ bfTable16 ++ bfTable32 ++ bfTable64 ++ bfTable128 ++ bfTable256

/-- Table 4.2, from 8 to 1 (R65). -/
def rsDown1 : List F64 :=
  [0x3FF0000000000000#64]

/-- Table 4.2, from 16 to 2 (R65). -/
def rsDown2 : List F64 :=
  [0x3FF0000000000000#64, 0x3FECDB4095CB49FC#64]

/-- Table 4.2, from 32 to 4 (R65). -/
def rsDown4 : List F64 :=
  [0x3FF0000000000000#64, 0x3FEF3245D8C2B294#64, 0x3FECDB4095CB49FC#64, 0x3FE92F8DCBB4C70A#64]

/-- Table 4.2, from 64 to 8 (R65). -/
def rsDown8 : List F64 :=
  [0x3FF0000000000000#64, 0x3FEFCC47DE365031#64, 0x3FEF3245D8C2B294#64, 0x3FEE35656F28B14A#64,
    0x3FECDB4095CB49FC#64, 0x3FEB2B7AA0F61BDF#64, 0x3FE92F8DCBB4C70A#64, 0x3FE6F28CBED07A63#64]

/-- Table 4.2, from 128 to 16 (R65). -/
def rsDown16 : List F64 :=
  [0x3FF0000000000000#64, 0x3FEFF30D5A3995BC#64, 0x3FEFCC47DE365031#64, 0x3FEF8BE6CD3C8C84#64,
    0x3FEF3245D8C2B294#64, 0x3FEEBFE48A2EA643#64, 0x3FEE35656F28B14A#64, 0x3FED938D0BF8BFE2#64,
    0x3FECDB4095CB49FC#64, 0x3FEC0D84771E59EE#64, 0x3FEB2B7AA0F61BDF#64, 0x3FEA3660ABD29171#64,
    0x3FE92F8DCBB4C70A#64, 0x3FE818709AD0A13A#64, 0x3FE6F28CBED07A63#64, 0x3FE5BF786CD0CFC7#64]

/-- Table 4.2, from 256 to 32 (R65). -/
def rsDown32 : List F64 :=
  [0x3FF0000000000000#64, 0x3FEFFCC30CA9CC83#64, 0x3FEFF30D5A3995BC#64, 0x3FEFE2E25EEBB7B6#64,
    0x3FEFCC47DE365031#64, 0x3FEFAF45E664437D#64, 0x3FEF8BE6CD3C8C84#64, 0x3FEF62372BB7538D#64,
    0x3FEF3245D8C2B294#64, 0x3FEEFC23E3197891#64, 0x3FEEBFE48A2EA643#64, 0x3FEE7D9D3630C758#64,
    0x3FEE35656F28B14A#64, 0x3FEDE756D3379693#64, 0x3FED938D0BF8BFE2#64, 0x3FED3A25C30B9E7F#64]
  ++ [0x3FECDB4095CB49FC#64, 0x3FEC76FF0838D859#64, 0x3FEC0D84771E59EE#64, 0x3FEB9EF609709A45#64,
    0x3FEB2B7AA0F61BDF#64, 0x3FEAB33ACA3A16DD#64, 0x3FEA3660ABD29171#64, 0x3FE9B517F500F477#64,
    0x3FE92F8DCBB4C70A#64, 0x3FE8A5F0B9F88073#64, 0x3FE818709AD0A13A#64, 0x3FE7873E86958137#64,
    0x3FE6F28CBED07A63#64, 0x3FE65A8E99A54D8D#64, 0x3FE5BF786CD0CFC7#64, 0x3FE5217F78461CD6#64]

/-- Table 4.3, from 1 to 8 (R65). -/
def rsUp1 : List F64 :=
  [0x3FF0000000000000#64]

/-- Table 4.3, from 2 to 16 (R65). -/
def rsUp2 : List F64 :=
  [0x3FF0000000000000#64, 0x3FF1BE35182FE5AA#64]

/-- Table 4.3, from 4 to 32 (R65). -/
def rsUp4 : List F64 :=
  [0x3FF0000000000000#64, 0x3FF069836B53778E#64, 0x3FF1BE35182FE5AA#64, 0x3FF454360F879635#64]

/-- Table 4.3, from 8 to 64 (R65). -/
def rsUp8 : List F64 :=
  [0x3FF0000000000000#64, 0x3FF01A0620673106#64, 0x3FF069836B53778E#64, 0x3FF0F2E65ED94470#64,
    0x3FF1BE35182FE5AA#64, 0x3FF2D82C3618D69E#64, 0x3FF454360F879635#64, 0x3FF64FD494744153#64]

/-- Table 4.3, from 16 to 128 (R65). -/
def rsUp16 : List F64 :=
  [0x3FF0000000000000#64, 0x3FF0067BF2891A08#64, 0x3FF01A0620673106#64, 0x3FF03AE23BD8D3A3#64,
    0x3FF069836B53778E#64, 0x3FF0A68FE8F0C0CC#64, 0x3FF0F2E65ED94470#64, 0x3FF14FA552E65F83#64,
    0x3FF1BE35182FE5AA#64, 0x3FF24054EDEE3E13#64, 0x3FF2D82C3618D69E#64, 0x3FF388610C91A51B#64,
    0x3FF454360F879635#64, 0x3FF53FB1F1146F4D#64, 0x3FF64FD494744153#64, 0x3FF78ADF40F4FBAB#64]

/-- Table 4.3, from 32 to 256 (R65). -/
def rsUp32 : List F64 :=
  [0x3FF0000000000000#64, 0x3FF0019EA3A03497#64, 0x3FF0067BF2891A08#64, 0x3FF00E9C1B8A1CF1#64,
    0x3FF01A0620673106#64, 0x3FF028C3E39A19E1#64, 0x3FF03AE23BD8D3A3#64, 0x3FF050710DA78D48#64,
    0x3FF069836B53778E#64, 0x3FF0862FBBCC9F74#64, 0x3FF0A68FE8F0C0CC#64, 0x3FF0CAC195F82A08#64,
    0x3FF0F2E65ED94470#64, 0x3FF11F2421A017DE#64, 0x3FF14FA552E65F83#64, 0x3FF184995ECFECC2#64]
  ++ [0x3FF1BE35182FE5AA#64, 0x3FF1FCB337C80A84#64, 0x3FF24054EDEE3E13#64, 0x3FF2896289515655#64,
    0x3FF2D82C3618D69E#64, 0x3FF32D0AD938C139#64, 0x3FF388610C91A51B#64, 0x3FF3EA9C415D9D79#64,
    0x3FF454360F879635#64, 0x3FF4C5B5B9E832EA#64, 0x3FF53FB1F1146F4D#64, 0x3FF5C2D2E083D748#64,
    0x3FF64FD494744153#64, 0x3FF6E789CA3DAA18#64, 0x3FF78ADF40F4FBAB#64, 0x3FF83ADFA58BE9C3#64]

/-- The resample ROM, 126 entries: the downsampling tables, then the upsampling ones (R66). -/
def resampleRom : List F64 :=
  rsDown1 ++ rsDown2 ++ rsDown4 ++ rsDown8 ++ rsDown16 ++ rsDown32
    ++ rsUp1 ++ rsUp2 ++ rsUp4 ++ rsUp8 ++ rsUp16 ++ rsUp32

/-- The address of `BF(2^l, i)`: n/2 - 1 + i (R66). -/
def bfAddress (l i : Nat) : Nat := 2 ^ (l - 1) - 1 + i

/-- `BF(2^l, i)`, for 1 ≤ l ≤ 8 and i < 2^(l-1) (R64). No rule reads it anywhere else. -/
def BF (l i : Nat) : F64 := butterflyRom.getD (bfAddress l i) F64.zero

/-- The address of `RS(2^la, 2^lb, i)`: T - 1 + i where it goes down to T, 63 + T - 1 + i where it goes up from T (R66). -/
def rsAddress (la lb i : Nat) : Nat :=
  if lb < la then 2 ^ lb - 1 + i else 63 + 2 ^ la - 1 + i

/-- `RS(2^la, 2^lb, i)`, for sizes of ratio 8 and i below the smaller one (R65). No rule reads it anywhere else. -/
def RS (la lb i : Nat) : F64 := resampleRom.getD (rsAddress la lb i) F64.zero

end Sys2Proof.Machine
end

