-- ==== Sys2Proof/Machine/Operands.lean ====
section
/-! DEFINITION. The operand forms of the commands: size fields (R58), the ratio of two sizes (R67, R81), vector operands
read from the snapshot with their initialisation check (R72, R78, R90), and the NaN encodings a command draws (R12). -/

namespace Sys2Proof.Machine

/-- A size field 0 to 8 is a supported size; 9 to 15 is not (R6, R58). -/
def sizeSupported (l : Nat) : Bool := l ≤ Config.maxLog

/-- `max(from,to)/min(from,to) = 8`, on the logarithms (R67). -/
def ratioIsEight (la lb : Nat) : Bool := la = lb + Config.stageLog || lb = la + Config.stageLog

/-- How many ratio-8 stages make the ratio `2^big / 2^small`: one for 8, two for 64, and no sequence for any other ratio
or for the wrong direction (R81). -/
def resampleStages (big small : Nat) : Option Nat :=
  if big = small + Config.stageLog then some 1
  else if big = small + 2 * Config.stageLog then some 2
  else none

/-- All the values, if every one is there. -/
def collect : List (Option F64) → Option (List F64)
  | [] => some []
  | none :: _ => none
  | some x :: rest => (collect rest).map (x :: ·)

/-- `SNAP[0..n-1]`, or `none` where a half of it is not initialised (R72, R78, R90). -/
def operandVector (s : State) (n : Nat) : Option (List F64) :=
  collect ((List.range n).map (fun k => s.snap.word (8 * k)))

/-- The NaN encoding that an operation of the command now completing answers with, if its result is a NaN (R12). -/
def drawnNaN (s : State) (site : Config.OpSite) : F64 := nanOf (Config.nanChoice s.draws site)

/-- Word `k` of a vector. The pseudocode reads no word outside its vectors. -/
def elem (v : List F64) (k : Nat) : F64 := v.getD k F64.zero

end Sys2Proof.Machine
end

