-- ==== Sys2Proof/Machine/Resample.lean ====
section
/-! DEFINITION. ResampleEngine: the ratio-8 stages (R79, R80), their chaining (R81), and the commands DOWN and UP
(R82, R83). Sizes are held as logarithms. -/

namespace Sys2Proof.Machine

open Config (OpSite)

/-- The multiplication of one ratio-8 stage from size 2^lp to size 2^lq: `fmul(c[i], RS(P, Q, i))` (R79, R80). -/
def stageElem (c : F64) (lp lq i : Nat) (x : F64) : F64 := fmul c x (RS lp lq i)

/-- DOWN's word `i` from coefficient `x`: one stage M → T, or two stages M → M/8 → T (R82). -/
def downElem (c : OpSite → F64) (lm lt stages i : Nat) (x : F64) : F64 :=
  if stages = 1 then stageElem (c ⟨[], .stageOne, i⟩) lm lt i x
  else stageElem (c ⟨[], .stageTwo, i⟩) (lm - 3) lt i (stageElem (c ⟨[], .stageOne, i⟩) lm (lm - 3) i x)

/-- UP's word `i` below T from coefficient `x`: one stage T → M, or two stages T → 8T → M (R83). -/
def upElem (c : OpSite → F64) (lt lm stages i : Nat) (x : F64) : F64 :=
  if stages = 1 then stageElem (c ⟨[], .stageOne, i⟩) lt lm i x
  else stageElem (c ⟨[], .stageTwo, i⟩) (lt + 3) lm i (stageElem (c ⟨[], .stageOne, i⟩) lt (lt + 3) i x)

/-- What DOWN writes to `OBUF[0..T-1]` (R82). -/
def downVector (c : OpSite → F64) (lm lt stages : Nat) (v : List F64) : List F64 :=
  (List.range (2 ^ lt)).map fun i => downElem c lm lt stages i (elem v i)

/-- What UP writes to `OBUF[0..M-1]`: the scaled coefficients, then +0.0 (R83). -/
def upVector (c : OpSite → F64) (lt lm stages : Nat) (v : List F64) : List F64 :=
  (List.range (2 ^ lm)).map fun i =>
    if i < 2 ^ lt then upElem c lt lm stages i (elem v i) else F64.zero

/-- DOWN (R82). It reads `SNAP[0..T-1]` only (R78). -/
def execDown (sza szb : Nat) (_src : BufSel) (s : State) : Host.Outcome State Fault Refusal :=
  if !sizeSupported sza || !sizeSupported szb then .next (raiseError .unsupportedSize s)
  else match resampleStages sza szb with
    | none => .next (raiseError .unsupportedResampleRatio s)
    | some stages =>
      match operandVector s (2 ^ szb) with
      | none => .next (s.recordFault .uninitOperand)
      | some v => .next (finishVector (2 ^ szb) (downVector (drawnNaN s) sza szb stages v) s)

/-- UP (R83). It reads `SNAP[0..T-1]` (R78). -/
def execUp (sza szb : Nat) (_src : BufSel) (s : State) : Host.Outcome State Fault Refusal :=
  if !sizeSupported sza || !sizeSupported szb then .next (raiseError .unsupportedSize s)
  else match resampleStages szb sza with
    | none => .next (raiseError .unsupportedResampleRatio s)
    | some stages =>
      match operandVector s (2 ^ sza) with
      | none => .next (s.recordFault .uninitOperand)
      | some v => .next (finishVector (2 ^ szb) (upVector (drawnNaN s) sza szb stages v) s)

end Sys2Proof.Machine
end

