-- ==== Sys2Proof/Machine/Tables.lean ====
section
/-! DEFINITION. ConstantTableProvider: the commands RDRS and RDBF (R67, R68). Their checks run in the order written, and
the first that fails raises. -/

namespace Sys2Proof.Machine

/-- RDRS (R67). -/
def execRdrs (sza szb idx : Nat) (s : State) : Host.Outcome State Fault Refusal :=
  if !sizeSupported sza || !sizeSupported szb then .next (raiseError .unsupportedSize s)
  else if !ratioIsEight sza szb then .next (raiseError .unsupportedRatio s)
  else if 2 ^ min sza szb ≤ idx then .next (raiseError .indexOutOfRange s)
  else .next (finishScalar (RS sza szb idx) s)

/-- RDBF (R68): a size without a readable table is an index error too. -/
def execRdbf (sza idx : Nat) (s : State) : Host.Outcome State Fault Refusal :=
  if sza < 2 || !sizeSupported sza then .next (raiseError .indexOutOfRange s)
  else if 2 ^ (sza - 1) ≤ idx then .next (raiseError .indexOutOfRange s)
  else .next (finishScalar (BF sza idx) s)

end Sys2Proof.Machine
end

