-- ==== Sys2Proof/Machine/Transform.lean ====
section
/-! DEFINITION. FastTransformEngine: the recursions of R73 and R74, and the commands FWD and INV (R75, R76).

`c` gives the NaN encoding of each operation (R12). Sizes are held as logarithms: `leeF c l path v` is `LeeF` of the
2^l words of `v`, and `path` names the level for `c`. -/

namespace Sys2Proof.Machine

open Config (OpSite Branch)

/-- `LeeF`, the forward recursion (R73). -/
def leeF (c : OpSite → F64) : Nat → List Branch → List F64 → List F64
  | 0, _, v => [elem v 0]
  | l + 1, path, v =>
    let h := 2 ^ l
    let n := 2 ^ (l + 1)
    let a := (List.range h).map fun i => fadd (c ⟨path, .sum, i⟩) (elem v i) (elem v (n - 1 - i))
    let b := (List.range h).map fun i =>
      fmul (c ⟨path, .twiddle, i⟩) (fsub (c ⟨path, .diff, i⟩) (elem v i) (elem v (n - 1 - i))) (BF (l + 1) i)
    let A := leeF c l (.evenHalf :: path) a
    let B := leeF c l (.oddHalf :: path) b
    (List.range n).map fun k =>
      if k % 2 = 0 then elem A (k / 2)
      else if k = n - 1 then elem B (h - 1)
      else fadd (c ⟨path, .fold, k / 2⟩) (elem B (k / 2)) (elem B (k / 2 + 1))

/-- `DCT3`, the inverse recursion (R74). -/
def dct3 (c : OpSite → F64) : Nat → List Branch → List F64 → List F64
  | 0, _, x => [elem x 0]
  | l + 1, path, x =>
    let h := 2 ^ l
    let n := 2 ^ (l + 1)
    let alpha := (List.range h).map fun j => elem x (2 * j)
    let beta := (List.range h).map fun j =>
      if j = 0 then elem x 1 else fadd (c ⟨path, .unfold, j⟩) (elem x (2 * j - 1)) (elem x (2 * j + 1))
    let A := dct3 c l (.evenHalf :: path) alpha
    let B := dct3 c l (.oddHalf :: path) beta
    let t := (List.range h).map fun i => fmul (c ⟨path, .retwiddle, i⟩) (elem B i) (BF (l + 1) i)
    (List.range n).map fun k =>
      if k < h then fadd (c ⟨path, .plus, k⟩) (elem A k) (elem t k)
      else fsub (c ⟨path, .minus, n - 1 - k⟩) (elem A (n - 1 - k)) (elem t (n - 1 - k))

/-- FWD's scale factor of word `k`: 1/N for word 0 and 2/N for the others (R75). -/
def forwardScale (l k : Nat) : F64 := if k = 0 then pow2 (-(l : Int)) else pow2 (1 - (l : Int))

/-- What FWD writes to `OBUF[0..N-1]` (R75). -/
def fwdVector (c : OpSite → F64) (l : Nat) (v : List F64) : List F64 :=
  let F := leeF c l [] v
  (List.range (2 ^ l)).map fun k => fmul (c ⟨[], .scale, k⟩) (elem F k) (forwardScale l k)

/-- What INV writes to `OBUF[0..N-1]` (R76). -/
def invVector (c : OpSite → F64) (l : Nat) (v : List F64) : List F64 := dct3 c l [] v

/-- FWD (R75). The SRC operand did its work at acceptance, where it selected the snapshot (R36, R59). -/
def execFwd (sza : Nat) (_src : BufSel) (s : State) : Host.Outcome State Fault Refusal :=
  if !sizeSupported sza then .next (raiseError .unsupportedSize s)
  else match operandVector s (2 ^ sza) with
    | none => .next (s.recordFault .uninitOperand)
    | some v => .next (finishVector (2 ^ sza) (fwdVector (drawnNaN s) sza v) s)

/-- INV (R76). -/
def execInv (sza : Nat) (_src : BufSel) (s : State) : Host.Outcome State Fault Refusal :=
  if !sizeSupported sza then .next (raiseError .unsupportedSize s)
  else match operandVector s (2 ^ sza) with
    | none => .next (s.recordFault .uninitOperand)
    | some v => .next (finishVector (2 ^ sza) (invVector (drawnNaN s) sza v) s)

end Sys2Proof.Machine
end

