-- ==== Sys2Proof/Machine/Dispatch.lean ====
section
/-! DEFINITION. One arm per command: what its completion does to the state (R92). -/

namespace Sys2Proof.Machine

def exec (i : Instr) (s : State) : Host.Outcome State Fault Refusal :=
  match i with
  | .fwd sza src => Sys2Proof.Machine.execFwd sza src s
  | .inv sza src => Sys2Proof.Machine.execInv sza src s
  | .down sza szb src => Sys2Proof.Machine.execDown sza szb src s
  | .up sza szb src => Sys2Proof.Machine.execUp sza szb src s
  | .rdrs sza szb idx => Sys2Proof.Machine.execRdrs sza szb idx s
  | .rdbf sza idx => Sys2Proof.Machine.execRdbf sza idx s

end Sys2Proof.Machine
end

