-- ==== Sys2Proof/Machine/Engine.lean ====
section
/-! DEFINITION. What moves next (R5, R49): the turns that State's script lists, in their order, and after the last of
them the engine for as long as a command is pending (R92, R112). -/

namespace Sys2Proof.Machine

/-- The completion step: the command that the decoder names, or IllegalCommand (R61, R92). -/
def completion (s : State) : Host.Outcome State Fault Refusal :=
  match decode s.cmd with
  | .ok i => exec i s
  | .error _ => .next (raiseError .illegalCommand s)

/-- The engine's turn: it is enabled while BUSY, and otherwise nothing happens (R37, R92, R101). -/
def engineTurn (s : State) : Host.Outcome State Fault Refusal :=
  if s.status.busy then completion s else .next s

/-- One turn of the script, taken out of the script already. -/
def runEvent (e : Event) (s : State) : Host.Outcome State Fault Refusal :=
  match e with
  | .read master a w => hostAccess a (hostRead master a w s)
  | .write master a w v => hostAccess a (hostWrite master a w v s)
  | .reset => .next (platformReset s)
  | .engine => engineTurn s

/-- The next turn (R49). With no turn listed the engine has it, so that a pending command is always completed (R112). -/
def nextTurn (s : State) : Host.Outcome State Fault Refusal :=
  match s.script with
  | [] => engineTurn s
  | e :: rest => runEvent e (s.setScript rest)

/-- Accept a command word and give the engine the next turn. -/
def acceptThenEngine (w : Word) (s : State) : State := (s.accept w).setScript (.engine :: s.script)

end Sys2Proof.Machine
end

