-- ==== Sys2Proof/Machine/Step.lean ====
section
/-! DEFINITION. One step of the machine: one host access, one completion step, or one reset (R49). -/

namespace Sys2Proof.Machine

def step (s : State) : Host.Outcome State Fault Refusal := nextTurn s

/-- DCTBE fetches no instructions: a command is given whole by an accepted CMD write (R18). So `s` with the word where
the next step finds its command is `s` after that acceptance (R91), with the engine's turn next. -/
def State.withFetchWord (s : State) (nbits w : Nat) : State := acceptThenEngine (tableWord nbits w) s

end Sys2Proof.Machine
end

