-- ==== Sys2Proof/Machine/HostProgram.lean ====
section
/-! DEFINITION. The host's side: the assembler and the host-program notation of R63, as the turns that they put into
State's script, and the place of the window in the platform's addresses (R38). -/

namespace Sys2Proof.Machine

/-! ### The assembler (R63) -/

/-- One line of R63's command syntax. Sizes are written as sizes; `src` is `.ibuf` where no buffer is written. -/
inductive AsmLine where
  | fwd (n : Nat) (src : BufSel)
  | inv (n : Nat) (src : BufSel)
  | down (m t : Nat) (src : BufSel)
  | up (t m : Nat) (src : BufSel)
  | rdrs (fromSize toSize i : Nat)
  | rdbf (n i : Nat)
  /-- `.word 0x...` -/
  | dotWord (w : Word)
  deriving DecidableEq, Repr

/-- The size field of a size: a power of two from 1 to 32768, and no other (R63). -/
def sizeField (n : Nat) : Option Nat := (List.range 16).find? (fun l => 2 ^ l == n)

/-- The index field of an index: 0 to 255 (R63). -/
def indexField (i : Nat) : Option Nat := if indexFits i then some i else none

/-- The command word of a line, or `none` where the assembler refuses it (R63). -/
def assemble : AsmLine → Option Word
  | .fwd n src => (sizeField n).map fun l => encode (.fwd l src)
  | .inv n src => (sizeField n).map fun l => encode (.inv l src)
  | .down m t src =>
    match sizeField m, sizeField t with
    | some lm, some lt => some (encode (.down lm lt src))
    | _, _ => none
  | .up t m src =>
    match sizeField t, sizeField m with
    | some lt, some lm => some (encode (.up lt lm src))
    | _, _ => none
  | .rdrs fromSize toSize i =>
    match sizeField fromSize, sizeField toSize, indexField i with
    | some la, some lb, some k => some (encode (.rdrs la lb k))
    | _, _, _ => none
  | .rdbf n i =>
    match sizeField n, indexField i with
    | some l, some k => some (encode (.rdbf l k))
    | _, _ => none
  | .dotWord w => some w

/-! ### Host-program notation (R63) -/

/-- `W32 off, v` -/
def w32 (master off : Nat) (v : Word) : Event := .write master off 4 (v.setWidth 64)

/-- `W64 off, v` -/
def w64 (master off : Nat) (v : F64) : Event := .write master off 8 v

/-- `R32 off` -/
def r32 (master off : Nat) : Event := .read master off 4

/-- `R64 off` -/
def r64 (master off : Nat) : Event := .read master off 8

/-- `ISSUE <command>` -/
def issue (master : Nat) (w : Word) : Event := w32 master 0x00C w

/-- `LOAD k: x0, x1, ...` -/
def load (master : Nat) : Nat → List F64 → List Event
  | _, [] => []
  | k, x :: xs => w64 master (Config.ibufBase + 8 * k) x :: load master (k + 1) xs

/-- One run of `WAIT`: `polls` reads of STATUS before the completion step, and the read after it that ends the loop. -/
def wait (master polls : Nat) : List Event :=
  List.replicate polls (r32 master 0x008) ++ [.engine, r32 master 0x008]

/-- `ACK`: clear DONE and ERR (R63, R95) -/
def ackFlags (master : Nat) : Event := w32 master 0x008 0x00000006#32

/-! ### The window in the platform's addresses (R38) -/

/-- `BASE` is a platform parameter, a multiple of 0x4000 (R7, R38). -/
def baseAligned (base : Nat) : Bool := base % Config.windowSize == 0

/-- The offset of a platform address, if it lies in the window at `base` (R38). -/
def windowOffset (base addr : Nat) : Option Nat :=
  if base ≤ addr ∧ addr < base + Config.windowSize then some (addr - base) else none

/-- A bus read at a platform address, if DCTBE is the one that it reaches. -/
def busRead (base master addr w : Nat) : Option Event := (windowOffset base addr).map fun a => .read master a w

/-- A bus write at a platform address, if DCTBE is the one that it reaches. -/
def busWrite (base master addr w : Nat) (v : F64) : Option Event :=
  (windowOffset base addr).map fun a => .write master a w v

end Sys2Proof.Machine
end

