-- ==== Sys2Proof/Safety.lean ====
section
/-! DEFINITION. What the spec calls a good run and the end of one (R90, R113), and the invariant that every step keeps. -/

namespace Sys2Proof.Machine

/-- No model fault is recorded: the run so far is a good run (R90). -/
def State.good (s : State) : Bool := s.faults == FaultSet.empty

/-- Every turn still to come is the engine's: the host has made its last access, and no reset comes (R113). -/
def State.hostDone (s : State) : Bool := s.script.all (fun e => e == .engine)

/-- The end of a run: the host is done, BUSY = 0, and the fault set is empty (R113). -/
def State.runEnded (s : State) : Bool := s.hostDone && !s.status.busy && s.good

/-- What is observed at the end of a run: the registers, IRQ, and the marked buffer halves with their bits (R113). -/
structure Observation where
  ctrl : Word
  status : Word
  cmd : Word
  resultLo : Word
  resultHi : Word
  irq : Bool
  buffers : Memory
  deriving DecidableEq, Repr

/-- The observation of a state (R113). -/
def State.observe (s : State) : Observation where
  ctrl := s.ctrlWord
  status := s.status.word
  cmd := s.cmd
  resultLo := s.resultLo
  resultHi := s.resultHi
  irq := s.irq
  buffers := s.mem

/-! ### The invariant -/

/-- What R22 to R26 say of the flags together: DONE and ERR are never both 1, ERRCODE is 0 exactly while ERR is 0 and is
never 6 to 15, BUSY goes with neither DONE nor ERR, and OLEN is at most 256. -/
structure Status.Legal (t : Status) : Prop where
  notBoth : t.done = true → t.err = false
  codeClear : t.err = false → t.errcode = 0#4
  codeSet : t.err = true → 1 ≤ t.errcode.toNat ∧ t.errcode.toNat ≤ 5
  busyClear : t.busy = true → t.done = false ∧ t.err = false
  olenBound : t.olen.toNat ≤ 256

/-- The marks are the marks of 32-bit halves: the four bytes of a half are marked together (R34). -/
def Memory.WholeHalves (m : Memory) : Prop :=
  ∀ a j, a % 4 = 0 → j < 4 → (m.byte (a + j)).isSome = (m.byte a).isSome

/-- Marked bytes lie in IBUF and OBUF, and nowhere else in the window (R33, R45). -/
def Memory.InBuffers (m : Memory) : Prop := ∀ c ∈ m, inIbuf c.1 = true ∨ inObuf c.1 = true

/-- Marked bytes of a snapshot lie in its 256 words (R36). -/
def Memory.InSnapshot (m : Memory) : Prop := ∀ c ∈ m, c.1 < Config.bufBytes

/-- The invariant of DCTBE. -/
structure State.Inv (s : State) : Prop where
  status : s.status.Legal
  memForm : s.mem.wf
  memPlace : s.mem.InBuffers
  memMarks : s.mem.WholeHalves
  snapForm : s.snap.wf
  snapPlace : s.snap.InSnapshot
  snapMarks : s.snap.WholeHalves

end Sys2Proof.Machine
end

