-- ==== Sys2Proof/Certificates/Slice0/Obligations.lean ====
section
/-! DEFINITION. The statements for the provers, after the words that they share. -/

namespace Sys2Proof.Claims

open Sys2Proof.Machine

/-! ### What a completion leaves -/

/-- Nothing but STATUS differs; memory by the read of every byte. -/
structure KeepsAllButStatus (s t : State) : Prop where
  ie : t.ie = s.ie
  cmd : t.cmd = s.cmd
  resultLo : t.resultLo = s.resultLo
  resultHi : t.resultHi = s.resultHi
  mem : ∀ a, t.mem.byte a = s.mem.byte a
  snap : t.snap = s.snap
  faults : t.faults = s.faults
  script : t.script = s.script
  responses : t.responses = s.responses
  draws : t.draws = s.draws

/-- The error branch of R92: ERR and ERRCODE are set, BUSY is cleared, and nothing else is written. -/
structure ErrorReported (code : BitVec 4) (s t : State) : Prop where
  err : t.status.err = true
  errcode : t.status.errcode = code
  busy : t.status.busy = false
  done : t.status.done = s.status.done
  werr : t.status.werr = s.status.werr
  olen : t.status.olen = s.status.olen
  rest : KeepsAllButStatus s t

/-- The success branch of R92 for a vector command: OBUF words 0 to n-1 hold `out`, OLEN is `n`, DONE is set and BUSY
cleared, and nothing else is written. (The count of draws is the model's own and advances.) -/
structure VectorWritten (n : Nat) (out : Nat → F64) (s t : State) : Prop where
  words : ∀ k < n, t.mem.word (0x2000 + 8 * k) = some (out k)
  others : ∀ a, a < 0x2000 ∨ 0x2000 + 8 * n ≤ a → t.mem.byte a = s.mem.byte a
  olen : t.status.olen.toNat = n
  done : t.status.done = true
  busy : t.status.busy = false
  err : t.status.err = s.status.err
  errcode : t.status.errcode = s.status.errcode
  werr : t.status.werr = s.status.werr
  ie : t.ie = s.ie
  cmd : t.cmd = s.cmd
  resultLo : t.resultLo = s.resultLo
  resultHi : t.resultHi = s.resultHi
  snap : t.snap = s.snap
  faults : t.faults = s.faults
  script : t.script = s.script
  responses : t.responses = s.responses

/-- The success branch of R92 for a table read: the RESULT pair holds `v`, OLEN is 0, DONE is set and BUSY cleared, and
nothing else is written. -/
structure ScalarWritten (v : F64) (s t : State) : Prop where
  resultLo : t.resultLo = v.extractLsb' 0 32
  resultHi : t.resultHi = v.extractLsb' 32 32
  olen : t.status.olen = 0#9
  done : t.status.done = true
  busy : t.status.busy = false
  err : t.status.err = s.status.err
  errcode : t.status.errcode = s.status.errcode
  werr : t.status.werr = s.status.werr
  mem : ∀ a, t.mem.byte a = s.mem.byte a
  ie : t.ie = s.ie
  cmd : t.cmd = s.cmd
  snap : t.snap = s.snap
  faults : t.faults = s.faults
  script : t.script = s.script
  responses : t.responses = s.responses
  draws : t.draws = s.draws

/-- The operand words `SNAP[0..n-1]` hold the values `x` (R72, R78). -/
def Operands (s : State) (n : Nat) (x : Nat → F64) : Prop := ∀ k < n, s.snap.word (8 * k) = some (x k)

/-- The vector of the values `x`. -/
def vector (n : Nat) (x : Nat → F64) : List F64 := (List.range n).map x

/-! ### The checks of the commands, by the conditions that R67, R68, R75, R76, R82 and R83 write -/

/-- The ERRCODE of the first check that fails, in the order of R89, or `none` where all pass. -/
def checkCode : Instr → Option (BitVec 4)
  | .fwd a _ => if 8 < a then some 1#4 else none
  | .inv a _ => if 8 < a then some 1#4 else none
  | .down a b _ => if 8 < a ∨ 8 < b then some 1#4 else if a = b + 3 ∨ a = b + 6 then none else some 4#4
  | .up a b _ => if 8 < a ∨ 8 < b then some 1#4 else if b = a + 3 ∨ b = a + 6 then none else some 4#4
  | .rdrs a b i =>
    if 8 < a ∨ 8 < b then some 1#4
    else if ¬(a = b + 3 ∨ b = a + 3) then some 3#4
    else if 2 ^ min a b ≤ i then some 2#4 else none
  | .rdbf a i => if a < 2 ∨ 8 < a then some 2#4 else if 2 ^ (a - 1) ≤ i then some 2#4 else none

/-- The same for a command word: a word that is not well-formed is IllegalCommand, before any other check (R89). -/
def wordCode (w : Word) : Option (BitVec 4) :=
  match decode w with
  | .ok i => checkCode i
  | .error _ => some 5#4

/-- How many operand words a command reads (R90); the table reads have none. -/
def operandCount : Instr → Nat
  | .fwd a _ => 2 ^ a
  | .inv a _ => 2 ^ a
  | .down _ b _ => 2 ^ b
  | .up a _ _ => 2 ^ a
  | .rdrs _ _ _ => 0
  | .rdbf _ _ => 0

/-! ### Host accesses -/

/-- The offset is in IBUF (R45). -/
def InIbuf (a : Nat) : Prop := 0x1000 ≤ a ∧ a < 0x1800

/-- The offset is in OBUF (R45). -/
def InObuf (a : Nat) : Prop := 0x2000 ≤ a ∧ a < 0x2800

/-- The conditions of R40. -/
def Admits (a w : Nat) : Prop := (w = 4 ∧ a % 4 = 0) ∨ (w = 8 ∧ a % 8 = 0 ∧ (InIbuf a ∨ InObuf a))

/-- The event is a host access at an offset of the window. -/
def InWindow : Event → Prop
  | .read _ a _ => a < 0x4000
  | .write _ a _ _ => a < 0x4000
  | .reset => False
  | .engine => False

/-- DCTBE's own state is the same: every register, the buffers by the read of every byte, and the snapshot. -/
structure SameDevice (s t : State) : Prop where
  ie : t.ie = s.ie
  status : t.status = s.status
  cmd : t.cmd = s.cmd
  resultLo : t.resultLo = s.resultLo
  resultHi : t.resultHi = s.resultHi
  mem : ∀ a, t.mem.byte a = s.mem.byte a
  snap : t.snap = s.snap

/-- The access is answered, its turn is used up, and no model fault is recorded. -/
structure AnsweredWith (master : Nat) (x : Answer) (rest : List Event) (s t : State) : Prop where
  responses : t.responses = ⟨master, x⟩ :: s.responses
  script : t.script = rest
  faults : t.faults = s.faults

/-- Acceptance of the word `w` (R91). -/
structure Accepted (w : Word) (s t : State) : Prop where
  cmd : t.cmd = w
  snap : ∀ a, t.snap.byte a = if a < 0x800 then s.mem.byte ((if w.getLsbD 20 then 0x2000 else 0x1000) + a) else none
  done : t.status.done = false
  err : t.status.err = false
  errcode : t.status.errcode = 0#4
  busy : t.status.busy = true
  werr : t.status.werr = s.status.werr
  olen : t.status.olen = s.status.olen
  ie : t.ie = s.ie
  resultLo : t.resultLo = s.resultLo
  resultHi : t.resultHi = s.resultHi
  mem : ∀ a, t.mem.byte a = s.mem.byte a

/-- The write is dropped: WERR is set, and nothing else of the device changes (R25, R107). -/
structure Dropped (s t : State) : Prop where
  status : t.status = { s.status with werr := true }
  ie : t.ie = s.ie
  cmd : t.cmd = s.cmd
  resultLo : t.resultLo = s.resultLo
  resultHi : t.resultHi = s.resultHi
  mem : ∀ a, t.mem.byte a = s.mem.byte a
  snap : t.snap = s.snap

/-- The `w` bytes from `a` on hold the bits of `v`, least significant byte first (R39), and nothing else of the device
changes. -/
structure Stored (a w : Nat) (v : F64) (s t : State) : Prop where
  bytes : ∀ j < w, t.mem.byte (a + j) = some (v.extractLsb' (8 * j) 8)
  others : ∀ b, b < a ∨ a + w ≤ b → t.mem.byte b = s.mem.byte b
  ie : t.ie = s.ie
  status : t.status = s.status
  cmd : t.cmd = s.cmd
  resultLo : t.resultLo = s.resultLo
  resultHi : t.resultHi = s.resultHi
  snap : t.snap = s.snap

/-- A STATUS write clears DONE, ERR with ERRCODE, and WERR by bits 1, 2 and 3, and changes nothing else (R22 to R26). -/
structure ClearedBy (v : F64) (s t : State) : Prop where
  done : t.status.done = (s.status.done && !v.getLsbD 1)
  err : t.status.err = (s.status.err && !v.getLsbD 2)
  errcode : t.status.errcode = if v.getLsbD 2 then 0#4 else s.status.errcode
  werr : t.status.werr = (s.status.werr && !v.getLsbD 3)
  busy : t.status.busy = s.status.busy
  olen : t.status.olen = s.status.olen
  ie : t.ie = s.ie
  cmd : t.cmd = s.cmd
  resultLo : t.resultLo = s.resultLo
  resultHi : t.resultHi = s.resultHi
  mem : ∀ a, t.mem.byte a = s.mem.byte a
  snap : t.snap = s.snap

/-- CTRL takes bit 0 of the written value, and nothing else of the device changes (R21). -/
structure ControlWritten (v : F64) (s t : State) : Prop where
  ie : t.ie = v.getLsbD 0
  status : t.status = s.status
  cmd : t.cmd = s.cmd
  resultLo : t.resultLo = s.resultLo
  resultHi : t.resultHi = s.resultHi
  mem : ∀ a, t.mem.byte a = s.mem.byte a
  snap : t.snap = s.snap

/-- Every item of R16 at its value after reset (R103). -/
structure AfterReset (t : State) : Prop where
  ctrl : t.ctrlWord = 0#32
  status : t.status.word = 0#32
  cmd : t.cmd = 0#32
  resultLo : t.resultLo = 0#32
  resultHi : t.resultHi = 0#32
  marks : ∀ a, t.mem.byte a = none
  snap : ∀ a, t.snap.byte a = none
  irq : t.irq = false

/-! ### Arithmetic -/

/-- 1.0 -/
def one : F64 := 0x3FF0000000000000#64

/-- One ratio-8 downsampling stage on vectors, from size 2^p to 2^(p-3) (R79); `c` gives an element's NaN encoding. -/
def stageDown (c : Nat → F64) (p : Nat) (v : List F64) : List F64 :=
  (List.range (2 ^ (p - 3))).map fun i => fmul (c i) (elem v i) (RS p (p - 3) i)

/-- One ratio-8 upsampling stage on vectors, from size 2^q to 2^(q+3) (R80). -/
def stageUp (c : Nat → F64) (q : Nat) (v : List F64) : List F64 :=
  (List.range (2 ^ (q + 3))).map fun i => if i < 2 ^ q then fmul (c i) (elem v i) (RS q (q + 3) i) else 0#64

/-- How far `m` is from `k * 2^u`. -/
def distance (m k u : Nat) : Int := |(m : Int) - (k : Int) * 2 ^ u|

end Sys2Proof.Claims

open Sys2Proof Sys2Proof.Machine Sys2Proof.Claims

/-! ### Encoding -/

/-- R56, R61, R62: the decoder gives back every command that has an encoding, with every operand. -/
def Obligations.DecodeGivesBackEveryEncodedCommand : Prop :=
  ∀ i : Instr, i.wellFormed = true → decode (encode i) = .ok i

/-- R56, R61, R62: a word has at most one meaning, and the encoder gives back every word that the decoder accepts. -/
def Obligations.EncodeGivesBackEveryDecodedWord : Prop :=
  ∀ (w : Word) (i : Instr), decode w = .ok i → i.wellFormed = true ∧ encode i = w

/-- R61: what a well-formed word is, by its fields and by the rows of the table, and that any other word is accepted
and its completion raises IllegalCommand (code 5). -/
def Obligations.WellFormedWordsAreThoseOfOneRow : Prop :=
  ∀ w : Word,
    (wellFormedWord w = true ↔
      (w &&& 0xFFEFFF0F#32 = 1#32 ∨ w &&& 0xFFEFFF0F#32 = 2#32 ∨ w &&& 0xFFEFF00F#32 = 3#32 ∨
        w &&& 0xFFEFF00F#32 = 4#32 ∨ w &&& 0xFFF0000F#32 = 5#32 ∨ w &&& 0xFFF00F0F#32 = 6#32)) ∧
    (wellFormedWord w = true ↔
      ((fieldsOf w).reserved = 0#11 ∧
        (((fieldsOf w).op = 1#4 ∨ (fieldsOf w).op = 2#4) ∧ (fieldsOf w).szb = 0#4 ∧ (fieldsOf w).idx = 0#8 ∨
          ((fieldsOf w).op = 3#4 ∨ (fieldsOf w).op = 4#4) ∧ (fieldsOf w).idx = 0#8 ∨
          (fieldsOf w).op = 5#4 ∧ (fieldsOf w).src = 0#1 ∨
          (fieldsOf w).op = 6#4 ∧ (fieldsOf w).szb = 0#4 ∧ (fieldsOf w).src = 0#1))) ∧
    (∀ o p : Opcode, o.accepts w = true → p.accepts w = true → o = p) ∧
    (wellFormedWord w = false →
      (∀ s : State, s.status.busy = false → ∀ (master : Nat) (rest : List Event),
        s.script = w32 master 0x00C w :: rest → ∃ t, step s = .next t ∧ Accepted w s t) ∧
      ∀ s : State, s.status.busy = true → s.cmd = w → ∃ t, engineTurn s = .next t ∧ ErrorReported 5#4 s t)

/-- R56, R57, R61: words written out from the fields of the table decode to the commands they stand for, one at least
of each command, and reserved ones are refused by name. -/
def Obligations.WrittenOutWordsDecode : Prop :=
  decode 0b00000000000000000000000000100001#32 = .ok (.fwd 2 .ibuf) ∧
  decode 0b00000000000100000000000001100001#32 = .ok (.fwd 6 .obuf) ∧
  decode 0b00000000000000000000000000110010#32 = .ok (.inv 3 .ibuf) ∧
  decode 0b00000000000000000000001101100011#32 = .ok (.down 6 3 .ibuf) ∧
  decode 0b00000000000100000000011000110100#32 = .ok (.up 3 6 .obuf) ∧
  decode 0b00000000000000000011001101100101#32 = .ok (.rdrs 6 3 3) ∧
  decode 0b00000000000000111111000001110110#32 = .ok (.rdbf 7 63) ∧
  decode 0b00000000000000000000000000000000#32 = .error .reservedOp ∧
  decode 0b00000000001000000000000000100010#32 = .error .reservedBits ∧
  decode 0b00000000000000000000000100100001#32 = .error .unusedField

/-- R63: the worked encodings, and the sizes and indexes that the assembler refuses. -/
def Obligations.AssemblerGivesTheWorkedEncodings : Prop :=
  assemble (.fwd 4 .ibuf) = some 0x00000021#32 ∧ assemble (.inv 8 .ibuf) = some 0x00000032#32 ∧
  assemble (.fwd 64 .obuf) = some 0x00100061#32 ∧ assemble (.down 64 8 .ibuf) = some 0x00000363#32 ∧
  assemble (.down 256 4 .ibuf) = some 0x00000283#32 ∧ assemble (.up 8 64 .ibuf) = some 0x00000634#32 ∧
  assemble (.up 1 64 .ibuf) = some 0x00000604#32 ∧ assemble (.rdrs 64 8 3) = some 0x00003365#32 ∧
  assemble (.rdbf 4 1) = some 0x00001026#32 ∧ assemble (.rdbf 128 63) = some 0x0003F076#32 ∧
  assemble (.fwd 3 .ibuf) = none ∧ assemble (.fwd 65536 .ibuf) = none ∧ assemble (.rdbf 4 256) = none

/-! ### Steps and commands -/

/-- R62, R92: the engine's turn while BUSY = 1 is the completion step, and that runs the command that the decoder names.
Which step is the engine's turn is the model's scheduler (model's choice, assumption 3): the one that an empty script
leaves, or that the script lists next. -/
def Obligations.StepRunsTheDecodedCommand : Prop :=
  ∀ s : State,
    (s.script = [] → step s = engineTurn s) ∧
    (∀ rest, s.script = .engine :: rest → step s = engineTurn (s.setScript rest)) ∧
    ∀ i : Instr, s.status.busy = true → decode s.cmd = .ok i →
      engineTurn s = exec i s ∧ (s.script = [] → step s = exec i s) ∧
      (∀ rest, s.script = .engine :: rest → step s = exec i (s.setScript rest))

/-- The word that `withFetchWord` places is the one that the next step completes, in the state after its acceptance
(model's choice, assumption 8; R91). -/
def Obligations.PlacedWordIsTheNextCommand : Prop :=
  ∀ (s : State) (w : Nat) (i : Instr), decodeTableWord 32 w = some i →
    step (s.withFetchWord 32 w) = exec i (s.accept (tableWord 32 w)) ∧ Accepted (tableWord 32 w) s (s.accept (tableWord 32 w))

/-- R89: of the errors that apply exactly one is reported, the first in the order IllegalCommand, UnsupportedSize, the
ratio, IndexOutOfRange; a command whose checks pass reports none; and an erroring command never faults on its operands. -/
def Obligations.FirstFailingCheckIsReported : Prop :=
  ∀ s : State, s.status.busy = true →
    (∀ code, wordCode s.cmd = some code → ∃ t, engineTurn s = .next t ∧ ErrorReported code s t) ∧
    (wordCode s.cmd = none →
      ∃ t, engineTurn s = .next t ∧ t.status.err = s.status.err ∧ t.status.errcode = s.status.errcode)

/-- R15: a command that raises an error, an illegal word included, sets ERR and ERRCODE, clears BUSY, and writes nothing
else; and it raises only what its checks raise. -/
def Obligations.RaisingCommandWritesOnlyStatus : Prop :=
  ∀ s t : State, s.status.busy = true → s.status.err = false → engineTurn s = .next t → t.status.err = true →
    wordCode s.cmd = some t.status.errcode ∧ ErrorReported t.status.errcode s t

/-- R72, R75: FWD of a supported size with initialised operands completes, with its result, flags and frame. -/
def Obligations.FwdCompletes : Prop :=
  ∀ (s : State) (l : Nat) (src : BufSel) (x : Nat → F64), l ≤ 8 → Operands s (2 ^ l) x →
    ∃ t, exec (.fwd l src) s = .next t ∧
      VectorWritten (2 ^ l)
        (fun k => fmul (drawnNaN s ⟨[], .scale, k⟩) (elem (leeF (drawnNaN s) l [] (vector (2 ^ l) x)) k)
          (if k = 0 then pow2 (-(l : Int)) else pow2 (1 - (l : Int)))) s t

/-- R72, R76: INV of a supported size with initialised operands completes, with its result, flags and frame. -/
def Obligations.InvCompletes : Prop :=
  ∀ (s : State) (l : Nat) (src : BufSel) (x : Nat → F64), l ≤ 8 → Operands s (2 ^ l) x →
    ∃ t, exec (.inv l src) s = .next t ∧
      VectorWritten (2 ^ l) (fun k => elem (dct3 (drawnNaN s) l [] (vector (2 ^ l) x)) k) s t

/-- R78, R82: DOWN by ratio 8 or 64 with its T operands initialised completes, with its result, flags and frame. -/
def Obligations.DownCompletes : Prop :=
  ∀ (s : State) (a b : Nat) (src : BufSel) (x : Nat → F64), a ≤ 8 → Operands s (2 ^ b) x →
    (a = b + 3 → ∃ t, exec (.down a b src) s = .next t ∧
      VectorWritten (2 ^ b) (fun k => fmul (drawnNaN s ⟨[], .stageOne, k⟩) (x k) (RS a b k)) s t) ∧
    (a = b + 6 → ∃ t, exec (.down a b src) s = .next t ∧
      VectorWritten (2 ^ b)
        (fun k => fmul (drawnNaN s ⟨[], .stageTwo, k⟩)
          (fmul (drawnNaN s ⟨[], .stageOne, k⟩) (x k) (RS a (a - 3) k)) (RS (a - 3) b k)) s t)

/-- R78, R83: UP by ratio 8 or 64 with its T operands initialised completes, with its result, the padding with +0,
flags and frame. -/
def Obligations.UpCompletes : Prop :=
  ∀ (s : State) (a b : Nat) (src : BufSel) (x : Nat → F64), b ≤ 8 → Operands s (2 ^ a) x →
    (b = a + 3 → ∃ t, exec (.up a b src) s = .next t ∧
      VectorWritten (2 ^ b)
        (fun k => if k < 2 ^ a then fmul (drawnNaN s ⟨[], .stageOne, k⟩) (x k) (RS a b k) else 0#64) s t) ∧
    (b = a + 6 → ∃ t, exec (.up a b src) s = .next t ∧
      VectorWritten (2 ^ b)
        (fun k => if k < 2 ^ a then
            fmul (drawnNaN s ⟨[], .stageTwo, k⟩)
              (fmul (drawnNaN s ⟨[], .stageOne, k⟩) (x k) (RS a (a + 3) k)) (RS (a + 3) b k)
          else 0#64) s t)

/-- R67: RDRS of two supported sizes of ratio 8 with an index in range completes, with its result, flags and frame. -/
def Obligations.RdrsCompletes : Prop :=
  ∀ (s : State) (a b i : Nat), a ≤ 8 → b ≤ 8 → (a = b + 3 ∨ b = a + 3) → i < 2 ^ min a b →
    ∃ t, exec (.rdrs a b i) s = .next t ∧ ScalarWritten (RS a b i) s t

/-- R68: RDBF of a size 4 to 256 with a stage in range completes, with its result, flags and frame. -/
def Obligations.RdbfCompletes : Prop :=
  ∀ (s : State) (a i : Nat), 2 ≤ a → a ≤ 8 → i < 2 ^ (a - 1) →
    ∃ t, exec (.rdbf a i) s = .next t ∧ ScalarWritten (BF a i) s t

/-- R90, R92: a command whose checks pass, with an operand half that is not initialised, records UninitOperand and
writes nothing. -/
def Obligations.UninitialisedOperandWritesNothing : Prop :=
  ∀ (s : State) (i : Instr), checkCode i = none → (∃ k < operandCount i, s.snap.word (8 * k) = none) →
    ∃ t, exec i s = .next t ∧ t.faults.uninitOperand = true ∧ t.faults.busError = s.faults.busError ∧
      t.faults.uninitRead = s.faults.uninitRead ∧ SameDevice s t ∧ t.script = s.script ∧
      t.responses = s.responses ∧ t.draws = s.draws

/-! ### The transforms -/

/-- R73: the elements of `LeeF` at a level, from the half-size transforms of the sums and the scaled differences. -/
def Obligations.LeeFElements : Prop :=
  ∀ (c : Config.OpSite → F64) (p : List Config.Branch) (v : List F64),
    leeF c 0 p v = [elem v 0] ∧
    ∀ l : Nat,
      let n := 2 ^ (l + 1)
      let h := 2 ^ l
      let A := leeF c l (.evenHalf :: p) (vector h fun i => fadd (c ⟨p, .sum, i⟩) (elem v i) (elem v (n - 1 - i)))
      let B := leeF c l (.oddHalf :: p) (vector h fun i =>
        fmul (c ⟨p, .twiddle, i⟩) (fsub (c ⟨p, .diff, i⟩) (elem v i) (elem v (n - 1 - i))) (BF (l + 1) i))
      let out := leeF c (l + 1) p v
      out.length = n ∧ (∀ i < h, elem out (2 * i) = elem A i) ∧
        (∀ i, i + 1 < h → elem out (2 * i + 1) = fadd (c ⟨p, .fold, i⟩) (elem B i) (elem B (i + 1))) ∧
        elem out (n - 1) = elem B (h - 1)

/-- R74: the elements of `DCT3` at a level, from the half-size transforms of the even and the unfolded odd
coefficients. -/
def Obligations.Dct3Elements : Prop :=
  ∀ (c : Config.OpSite → F64) (p : List Config.Branch) (x : List F64),
    dct3 c 0 p x = [elem x 0] ∧
    ∀ l : Nat,
      let n := 2 ^ (l + 1)
      let h := 2 ^ l
      let A := dct3 c l (.evenHalf :: p) (vector h fun j => elem x (2 * j))
      let B := dct3 c l (.oddHalf :: p) (vector h fun j =>
        if j = 0 then elem x 1 else fadd (c ⟨p, .unfold, j⟩) (elem x (2 * j - 1)) (elem x (2 * j + 1)))
      let t := fun i => fmul (c ⟨p, .retwiddle, i⟩) (elem B i) (BF (l + 1) i)
      let out := dct3 c (l + 1) p x
      out.length = n ∧ (∀ i < h, elem out i = fadd (c ⟨p, .plus, i⟩) (elem A i) (t i)) ∧
        (∀ i < h, elem out (n - 1 - i) = fsub (c ⟨p, .minus, i⟩) (elem A i) (t i))

/-- R75: all inputs +0 give all outputs +0, for every N. -/
def Obligations.ForwardOfZerosIsZeros : Prop :=
  ∀ (c : Config.OpSite → F64) (l : Nat), l ≤ 8 →
    fwdVector c l (List.replicate (2 ^ l) 0#64) = List.replicate (2 ^ l) 0#64

/-- R75: all inputs -0 give -0 in word 0 and +0 in every other. -/
def Obligations.ForwardOfNegativeZeros : Prop :=
  ∀ (c : Config.OpSite → F64) (l : Nat), l ≤ 8 →
    fwdVector c l (List.replicate (2 ^ l) 0x8000000000000000#64) =
      0x8000000000000000#64 :: List.replicate (2 ^ l - 1) 0#64

/-- R76: a DC-only input of any value but a NaN or a zero gives that value in every output. -/
def Obligations.InverseOfDcIsConstant : Prop :=
  ∀ (c : Config.OpSite → F64) (l : Nat) (x : F64), l ≤ 8 → x.isNaN = false → x.isZero = false →
    invVector c l (x :: List.replicate (2 ^ l - 1) 0#64) = List.replicate (2 ^ l) x

/-- R12, R76: INV of one word writes the word it read, bit for bit, and FWD of one word does so for every value but a
NaN (R75). -/
def Obligations.OneWordTransformsKeepTheWord : Prop :=
  ∀ (c : Config.OpSite → F64) (x : F64),
    invVector c 0 [x] = [x] ∧ (x.isNaN = false → fwdVector c 0 [x] = [x])

/-! ### Resampling -/

/-- R81, R83: ratio 64 upsampling is two ratio-8 stages in sequence, from the source size towards the target size, and
ratio 8 is one. -/
def Obligations.UpIsAChainOfStages : Prop :=
  ∀ (c : Config.OpSite → F64) (a : Nat) (v : List F64),
    (a + 3 ≤ 8 → upVector c a (a + 3) 1 v = stageUp (fun i => c ⟨[], .stageOne, i⟩) a v) ∧
    (a + 6 ≤ 8 → upVector c a (a + 6) 2 v =
      stageUp (fun i => c ⟨[], .stageTwo, i⟩) (a + 3) (stageUp (fun i => c ⟨[], .stageOne, i⟩) a v))

/-- R81, R82: ratio 64 downsampling is two ratio-8 stages in sequence, and ratio 8 is one. -/
def Obligations.DownIsAChainOfStages : Prop :=
  ∀ (c : Config.OpSite → F64) (b : Nat) (v : List F64),
    (b + 3 ≤ 8 → downVector c (b + 3) b 1 v = stageDown (fun i => c ⟨[], .stageOne, i⟩) (b + 3) v) ∧
    (b + 6 ≤ 8 → downVector c (b + 6) b 2 v =
      stageDown (fun i => c ⟨[], .stageTwo, i⟩) (b + 3) (stageDown (fun i => c ⟨[], .stageOne, i⟩) (b + 6) v))

/-- R79, R82, R83: the DC coefficient passes DOWN and UP unchanged, NaN aside. -/
def Obligations.DcPassesResamplingUnchanged : Prop :=
  ∀ (c : Config.OpSite → F64) (a b n : Nat) (v : List F64), a ≤ 8 → resampleStages a b = some n →
    (elem v 0).isNaN = false →
    elem (downVector c a b n v) 0 = elem v 0 ∧ elem (upVector c b a n v) 0 = elem v 0

/-- R82: -0 stays -0 and an infinity stays an infinity of the same sign, in DOWN and in UP below T. -/
def Obligations.ResamplingKeepsZerosAndInfinities : Prop :=
  ∀ (c : Config.OpSite → F64) (a b n i : Nat) (v : List F64), a ≤ 8 → resampleStages a b = some n → i < 2 ^ b →
    ((elem v i).isZero = true ∨ (elem v i).isInf = true) →
    elem (downVector c a b n v) i = elem v i ∧ elem (upVector c b a n v) i = elem v i

/-! ### Arithmetic -/

/-- R11: rounding is to the nearest binary64 value, ties to the even one, subnormals kept; what rounds past the largest
finite number is an infinity; the sign is kept. -/
def Obligations.RoundingIsNearestTiesToEven : Prop :=
  ∀ (neg : Bool) (m u : Nat),
    let r := roundPack neg m u
    r.isNeg = neg ∧
    (r.isFinite = false ↔ (2 ^ 54 - 1) * 2 ^ 2044 * 2 ^ u ≤ m) ∧ (r.isFinite = false → r.isInf = true) ∧
    (r.isFinite = true → ∀ y : F64, y.isFinite = true →
      distance m r.magnitude u ≤ distance m y.magnitude u ∧
      (distance m r.magnitude u = distance m y.magnitude u → y.magnitude ≠ r.magnitude → r.frac % 2 = 0))

/-- R11: an addition whose exact sum is a binary64 value other than zero gives that value, and an exact zero sum gives
+0 unless both operands are -0. -/
def Obligations.AdditionIsExactWhereItCanBe : Prop :=
  ∀ c a b : F64, a.isFinite = true → b.isFinite = true →
    (∀ y : F64, y.isFinite = true → y.value = a.value + b.value → y.value ≠ 0 → fadd c a b = y) ∧
    (a.value + b.value = 0 →
      fadd c a b = if a = 0x8000000000000000#64 ∧ b = 0x8000000000000000#64 then 0x8000000000000000#64 else 0#64)

/-- R11: addition and multiplication do not depend on the order of their operands, and subtraction adds the value of
the other sign. -/
def Obligations.AdditionAndMultiplicationCommute : Prop :=
  ∀ c a b : F64, fadd c a b = fadd c b a ∧ fmul c a b = fmul c b a ∧
    (a.isFinite = true → b.isFinite = true → b.flip.value = -b.value ∧ fsub c a b = fadd c a b.flip)

/-- R11, R75: multiplying by 1.0 gives back every value but a NaN, bit for bit. -/
def Obligations.MultiplyingByOneKeepsTheValue : Prop :=
  ∀ c x : F64, x.isNaN = false → fmul c x one = x

/-- R12: a NaN result is the drawn encoding and no other, the drawn encodings are NaNs, and every NaN encoding can be
drawn. -/
def Obligations.NaNResultsAreTheDrawnEncodings : Prop :=
  (∀ c a b : F64, ((fadd c a b).isNaN = true → fadd c a b = c) ∧ ((fsub c a b).isNaN = true → fsub c a b = c) ∧
    ((fmul c a b).isNaN = true → fmul c a b = c)) ∧
  (∀ c a b : F64, a.isNaN = true ∨ b.isNaN = true → fadd c a b = c ∧ fsub c a b = c ∧ fmul c a b = c) ∧
  (∀ x : F64, (nanOf x).isNaN = true) ∧ (∀ y : F64, y.isNaN = true → ∃ x, nanOf x = y)

/-! ### The tables -/

/-- R64, R69: every butterfly entry is positive and finite, strictly increasing in the index, with the first entries in
[0.5000094, 0.7071068] and `BF(256, 127)` the largest, and with the spot values of the source. (A magnitude is a multiple
of 2^-1074.) -/
def Obligations.ButterflyTableIsAsDescribed : Prop :=
  (∀ l ∈ List.range' 1 8, ∀ i ∈ List.range (2 ^ (l - 1)),
    (BF l i).isNeg = false ∧ (BF l i).isFinite = true ∧ (BF l i).isZero = false ∧
      (BF l i).magnitude ≤ (BF 8 127).magnitude ∧
      (i + 1 < 2 ^ (l - 1) → (BF l i).magnitude < (BF l (i + 1)).magnitude)) ∧
  (∀ l ∈ List.range' 1 8,
    5000094 * 2 ^ 1074 ≤ (BF l 0).magnitude * 10 ^ 7 ∧ (BF l 0).magnitude * 10 ^ 7 ≤ 7071068 * 2 ^ 1074) ∧
  BF 1 0 = 0x3FE6A09E667F3BCC#64 ∧ BF 2 0 = 0x3FE1517A7BDB3895#64 ∧ BF 2 1 = 0x3FF4E7AE9144F0FB#64 ∧
  BF 7 63 = 0x40445F51F094CEE6#64 ∧ BF 8 127 = 0x40545F38CE754DD3#64 ∧
  butterflyRom.length = 255

/-- R65, R69: every resample entry is positive and finite; index 0 is 1.0; the downsampling entries are at most 1 and
strictly decreasing, and the upsampling ones at least 1; the spot value of the source. -/
def Obligations.ResampleTableIsAsDescribed : Prop :=
  (∀ t ∈ List.range 6, ∀ i ∈ List.range (2 ^ t),
    (RS (t + 3) t i).isNeg = false ∧ (RS t (t + 3) i).isNeg = false ∧
    (RS (t + 3) t i).isZero = false ∧ (RS t (t + 3) i).isFinite = true ∧
    (RS (t + 3) t i).magnitude ≤ one.magnitude ∧ one.magnitude ≤ (RS t (t + 3) i).magnitude ∧
    (i + 1 < 2 ^ t → (RS (t + 3) t (i + 1)).magnitude < (RS (t + 3) t i).magnitude)) ∧
  (∀ t ∈ List.range 6, RS (t + 3) t 0 = one ∧ RS t (t + 3) 0 = one) ∧
  RS 6 3 3 = 0x3FEE35656F28B14A#64 ∧ RS 8 5 31 = 0x3FE5217F78461CD6#64 ∧ resampleRom.length = 126

/-- R69: a downsampling entry times its upsampling entry is 1.0 for 49 of the 63 pairs, and within one unit in the last
place of it for the others. -/
def Obligations.ResampleEntriesAreReciprocal : Prop :=
  (∀ t ∈ List.range 6, ∀ i ∈ List.range (2 ^ t),
    fmul 0#64 (RS (t + 3) t i) (RS t (t + 3) i) = one ∨
    fmul 0#64 (RS (t + 3) t i) (RS t (t + 3) i) = 0x3FEFFFFFFFFFFFFF#64 ∨
    fmul 0#64 (RS (t + 3) t i) (RS t (t + 3) i) = 0x3FF0000000000001#64) ∧
  ((List.range 6).flatMap fun t => (List.range (2 ^ t)).filter fun i =>
    fmul 0#64 (RS (t + 3) t i) (RS t (t + 3) i) == one).length = 49

/-! ### Host accesses -/

/-- R91: a write of a word to CMD while BUSY = 0 is an acceptance, whether or not the word is legal. -/
def Obligations.AcceptanceTakesTheSnapshot : Prop :=
  ∀ (s : State) (master : Nat) (v : F64) (rest : List Event),
    s.status.busy = false → s.script = .write master 0x00C 4 v :: rest →
    ∃ t, step s = .next t ∧ Accepted (v.extractLsb' 0 32) s t ∧ AnsweredWith master .written rest s t

/-- R47: what an admitted write does, for every target, while BUSY = 0 and while BUSY = 1. -/
def Obligations.HostWritesActByTarget : Prop :=
  ∀ (s : State) (master a w : Nat) (v : F64) (rest : List Event),
    s.script = .write master a w v :: rest → a < 0x4000 → Admits a w →
    ∃ t, step s = .next t ∧ AnsweredWith master .written rest s t ∧
      (InIbuf a → s.status.busy = false → Stored a w v s t) ∧
      (InIbuf a → s.status.busy = true → Dropped s t) ∧
      (a = 0x004 → ControlWritten v s t) ∧
      (a = 0x008 → ClearedBy v s t) ∧
      (a = 0x00C → s.status.busy = false → Accepted (v.extractLsb' 0 32) s t) ∧
      (a = 0x00C → s.status.busy = true → Dropped s t) ∧
      (¬ InIbuf a → a ≠ 0x004 → a ≠ 0x008 → a ≠ 0x00C → SameDevice s t)

/-- R41: an access in the window that R40 does not admit is answered with a bus error, to the master that made it, is
recorded as a model fault that the next step keeps, and changes no state of DCTBE. -/
def Obligations.RefusedAccessChangesNothing : Prop :=
  ∀ (s : State) (master a w : Nat) (rest : List Event), a < 0x4000 → ¬ Admits a w →
    (s.script = .read master a w :: rest ∨ ∃ v, s.script = .write master a w v :: rest) →
    ∃ t, step s = .next t ∧ SameDevice s t ∧ t.irq = s.irq ∧ t.script = rest ∧
      t.responses = ⟨master, .busError⟩ :: s.responses ∧ t.faults.busError = true ∧
      t.faults.uninitRead = s.faults.uninitRead ∧ t.faults.uninitOperand = s.faults.uninitOperand ∧
      ∀ u, step t = .next u → u.faults.busError = true

/-- R40, R46: every admitted access of the window is answered: it is neither refused nor does it stop the machine. -/
def Obligations.AdmittedAccessIsAnswered : Prop :=
  ∀ (s : State) (master a w : Nat) (rest : List Event), a < 0x4000 → Admits a w →
    (s.script = .read master a w :: rest ∨ ∃ v, s.script = .write master a w v :: rest) →
    ∃ t x, step s = .next t ∧ t.responses = ⟨master, x⟩ :: s.responses ∧ x ≠ .busError ∧
      t.faults.busError = s.faults.busError

/-- An access outside the window stops the model (model's choice, assumption 5; R45 says that such an address is the
platform's affair). -/
def Obligations.AccessOutsideTheWindowStops : Prop :=
  ∀ (s : State) (master a w : Nat) (v : F64) (rest : List Event), 0x4000 ≤ a →
    s.script = .read master a w :: rest ∨ s.script = .write master a w v :: rest → step s = .fault .outsideWindow

/-- R20 to R31, R46: what a read of each register and of a reserved offset returns. -/
def Obligations.RegisterReadsReturnTheirFields : Prop :=
  ∀ (s : State) (master a : Nat) (rest : List Event),
    s.script = .read master a 4 :: rest → a < 0x4000 → a % 4 = 0 → ¬ InIbuf a → ¬ InObuf a →
    (a = 0x010 ∨ a = 0x014 → s.status.busy = false) →
    ∃ t v, step s = .next t ∧ SameDevice s t ∧ AnsweredWith master (.data v) rest s t ∧ t.draws = s.draws ∧
      (a = 0x000 → v = 0x44435442#64) ∧
      (a = 0x004 → v = if s.ie then 1#64 else 0#64) ∧
      (a = 0x008 → v.getLsbD 0 = s.status.busy ∧ v.getLsbD 1 = s.status.done ∧ v.getLsbD 2 = s.status.err ∧
        v.getLsbD 3 = s.status.werr ∧ v.extractLsb' 4 4 = s.status.errcode ∧ v.extractLsb' 8 9 = s.status.olen ∧
        v.extractLsb' 17 47 = 0#47) ∧
      (a = 0x00C → v = s.cmd.setWidth 64) ∧
      (a = 0x010 → v = s.resultLo.setWidth 64) ∧
      (a = 0x014 → v = s.resultHi.setWidth 64) ∧
      (a = 0x018 → v = 0x000301FF#64) ∧
      (0x018 < a → v = 0#64)

/-- R34, R39, R42, R46: what a read of a buffer returns: the marked bytes in little-endian order, or UninitRead and no
value where a mark of the addressed halves is clear. -/
def Obligations.BufferReadsReturnTheMarkedBytes : Prop :=
  ∀ (s : State) (master a w : Nat) (rest : List Event),
    s.script = .read master a w :: rest → Admits a w → InIbuf a ∨ InObuf a ∧ s.status.busy = false →
    ∃ t, step s = .next t ∧ SameDevice s t ∧ t.script = rest ∧ t.draws = s.draws ∧
      ((∀ j < w, (s.mem.byte (a + j)).isSome = true) →
        t.faults = s.faults ∧ ∃ v : F64, t.responses = ⟨master, .data v⟩ :: s.responses ∧
          (∀ j < w, s.mem.byte (a + j) = some (v.extractLsb' (8 * j) 8)) ∧ (w = 4 → v.extractLsb' 32 32 = 0#32)) ∧
      ((∃ j < w, s.mem.byte (a + j) = none) →
        t.responses = ⟨master, .noValue⟩ :: s.responses ∧ t.faults = s.faults.record .uninitRead)

/-- R108: a read of OBUF, RESULT_LO or RESULT_HI while BUSY = 1 returns a free value, drawn anew for each read. -/
def Obligations.BusyReadsAreFreshDraws : Prop :=
  ∀ (s : State) (master a w : Nat) (rest : List Event),
    s.script = .read master a w :: rest → Admits a w → s.status.busy = true →
    InObuf a ∨ a = 0x010 ∨ a = 0x014 →
    ∃ t v, step s = .next t ∧ SameDevice s t ∧ t.script = rest ∧ t.draws = s.draws + 1 ∧
      t.responses = ⟨master, .data v⟩ :: s.responses ∧
      (w = 8 → v = Config.busyRead s.draws) ∧
      (w = 4 → v = ((Config.busyRead s.draws).extractLsb' 0 32).setWidth 64)

/-- R44: no read has a side effect, and a read that is done again at once returns the same value, but for the reads of
R108. -/
def Obligations.ReadsHaveNoSideEffect : Prop :=
  ∀ (s t : State) (master a w : Nat) (rest : List Event),
    s.script = .read master a w :: rest → step s = .next t →
    SameDevice s t ∧
    (s.status.busy = false ∨ ¬ (InObuf a ∨ a = 0x010 ∨ a = 0x014) →
      ∀ again, t.script = .read master a w :: again →
        ∃ u, step t = .next u ∧ u.responses.head? = t.responses.head? ∧ u.faults = t.faults)

/-- R42: two 32-bit writes, in either order, or one 64-bit write put a buffer word together; each 32-bit write changes
only its half; a 64-bit read returns both halves as they stand, and a 32-bit read one of them. -/
def Obligations.MixedWidthsGiveOneWord : Prop :=
  ∀ (m : Memory) (k : Nat) (v : F64),
    let a := 0x1000 + 8 * k
    let lo := v.extractLsb' 0 32
    let hi := v.extractLsb' 32 32
    ((m.store a (storeBytes 4 (lo.setWidth 64))).store (a + 4) (storeBytes 4 (hi.setWidth 64))).word a = some v ∧
    ((m.store (a + 4) (storeBytes 4 (hi.setWidth 64))).store a (storeBytes 4 (lo.setWidth 64))).word a = some v ∧
    (m.store a (storeBytes 8 v)).word a = some v ∧
    (∀ x : F64, (m.store a (storeBytes 4 x)).half (a + 4) = m.half (a + 4) ∧
      (m.store (a + 4) (storeBytes 4 x)).half a = m.half a) ∧
    (m.word a = some v ↔ m.half a = some lo ∧ m.half (a + 4) = some hi)

/-- R32: IRQ is the level CTRL.IE AND (DONE OR ERR), 0 after reset, and low after DONE and ERR are cleared, after a new
acceptance, and after IE is cleared. -/
def Obligations.IrqIsALevelOfTheFlags : Prop :=
  (∀ s : State, s.irq = true ↔ s.ie = true ∧ (s.status.done = true ∨ s.status.err = true)) ∧
  State.reset.irq = false ∧
  (∀ (s : State) (master : Nat) (v : F64) (rest : List Event),
    (s.script = .write master 0x008 4 v :: rest ∧ v.getLsbD 1 = true ∧ v.getLsbD 2 = true ∨
      s.script = .write master 0x004 4 v :: rest ∧ v.getLsbD 0 = false ∨
      s.script = .write master 0x00C 4 v :: rest ∧ s.status.busy = false ∨ s.script = .reset :: rest) →
    ∃ t, step s = .next t ∧ t.irq = false)

/-! ### Reset -/

/-- R102, R103: reset gives every item its value, from any state and with a command in flight, and keeps the model's
faults. -/
def Obligations.ResetGivesEveryItemItsValue : Prop :=
  ∀ (s : State) (rest : List Event), s.script = .reset :: rest →
    ∃ t, step s = .next t ∧ AfterReset t ∧ t.faults = s.faults ∧ t.script = rest ∧ t.responses = s.responses ∧
      t.draws = s.draws

/-- R27, R30, R103: the state after a power-on reset, with an empty fault set; ID and CAPS read as their constants. -/
def Obligations.PowerOnStateIsAsTheTableSays : Prop :=
  AfterReset State.reset ∧ State.reset.good = true ∧
  (∃ t, step (State.reset.setScript [r32 0 0x000]) = .next t ∧ t.responses = [⟨0, .data 0x44435442#64⟩]) ∧
  (∃ t, step (State.reset.setScript [r32 0 0x018]) = .next t ∧ t.responses = [⟨0, .data 0x000301FF#64⟩])

/-! ### Rules of the whole machine -/

/-- R22 to R26, R33, R34, R36: every step keeps the invariant: the flags stay legal, the memories keep their canonical
form, marked bytes stay in the buffers, and marks stay those of whole halves. -/
def Obligations.EveryStepKeepsTheInvariant : Prop :=
  ∀ s t : State, s.Inv → step s = .next t → t.Inv

/-- R103: the invariant holds after reset. -/
def Obligations.ResetHasTheInvariant : Prop := State.reset.Inv

/-- R90: no step clears a recorded model fault, and a step records one exactly where its event happens. That UninitRead
takes in an OBUF read while BUSY at a clear mark is the model's reading (assumption 7), and that an empty script is the
engine's turn is its scheduler (assumption 3). -/
def Obligations.ModelFaultsAreRecordedExactly : Prop :=
  ∀ s t : State, step s = .next t →
    (t.faults.busError = true ↔ s.faults.busError = true ∨
      ∃ master a w rest, ¬ Admits a w ∧
        (s.script = .read master a w :: rest ∨ ∃ v, s.script = .write master a w v :: rest)) ∧
    (t.faults.uninitRead = true ↔ s.faults.uninitRead = true ∨
      ∃ master a w rest, Admits a w ∧ (InIbuf a ∨ InObuf a) ∧ s.script = .read master a w :: rest ∧
        ∃ j < w, s.mem.byte (a + j) = none) ∧
    (t.faults.uninitOperand = true ↔ s.faults.uninitOperand = true ∨
      s.status.busy = true ∧ (s.script = [] ∨ ∃ rest, s.script = .engine :: rest) ∧
        ∃ i, decode s.cmd = .ok i ∧ checkCode i = none ∧ ∃ k < operandCount i, s.snap.word (8 * k) = none)

/-- R92, R102: nothing but a completion step clears BUSY, and reset abandons the command. That an empty script is the
engine's turn is the model's scheduler (assumption 3). -/
def Obligations.OnlyCompletionOrResetClearsBusy : Prop :=
  ∀ s t : State, step s = .next t → s.status.busy = true → t.status.busy = false →
    s.script = [] ∨ (∃ rest, s.script = .engine :: rest) ∨ ∃ rest, s.script = .reset :: rest

/-- R25: WERR is cleared by a STATUS write with bit 3 set or by reset, and by nothing else; a CMD or IBUF write while BUSY
sets it, and nothing else does. -/
def Obligations.WerrIsSticky : Prop :=
  (∀ s t : State, step s = .next t → s.status.werr = true → t.status.werr = false →
    (∃ master v rest, s.script = .write master 0x008 4 v :: rest ∧ v.getLsbD 3 = true) ∨
      ∃ rest, s.script = .reset :: rest) ∧
  (∀ s t : State, step s = .next t → s.status.werr = false → t.status.werr = true →
    s.status.busy = true ∧ ∃ master a w v rest, s.script = .write master a w v :: rest ∧ (a = 0x00C ∨ InIbuf a)) ∧
  (∀ (s : State) (master a w : Nat) (v : F64) (rest : List Event), s.script = .write master a w v :: rest →
    s.status.busy = true → Admits a w → a = 0x00C ∨ InIbuf a → ∃ t, step s = .next t ∧ t.status.werr = true)

/-- R36, R53, R93: while a command is pending, no host access changes its word, its snapshot, the buffers or RESULT, or
ends it. -/
def Obligations.HostAccessesLeaveThePendingCommand : Prop :=
  ∀ (s t : State) (e : Event) (rest : List Event), s.script = e :: rest → InWindow e → s.status.busy = true →
    step s = .next t →
    t.status.busy = true ∧ t.cmd = s.cmd ∧ t.snap = s.snap ∧ (∀ a, t.mem.byte a = s.mem.byte a) ∧
      t.resultLo = s.resultLo ∧ t.resultHi = s.resultHi ∧ t.status.olen = s.status.olen

/-- R93: two completions of one command word with one snapshot and the same draws of NaN encodings report the same
outcome and write the same result words, whatever CTRL, WERR, the buffers, RESULT and OLEN were. The draws and the empty
script, which gives the engine the turn, are the model's (assumptions 1 and 3). -/
def Obligations.ResultsDependOnlyOnCommandAndSnapshot : Prop :=
  ∀ s₁ s₂ t₁ t₂ : State, s₁.cmd = s₂.cmd → s₁.snap = s₂.snap → s₁.draws = s₂.draws →
    s₁.status.busy = true → s₂.status.busy = true → s₁.script = [] → s₂.script = [] →
    s₁.status.err = s₂.status.err → s₁.status.done = s₂.status.done → s₁.status.errcode = s₂.status.errcode →
    step s₁ = .next t₁ → step s₂ = .next t₂ →
    t₁.status.busy = t₂.status.busy ∧ t₁.status.done = t₂.status.done ∧ t₁.status.err = t₂.status.err ∧
      t₁.status.errcode = t₂.status.errcode ∧
      (wordCode s₁.cmd = none → t₁.status.busy = false →
        t₁.status.olen = t₂.status.olen ∧
        (∀ k < t₁.status.olen.toNat, t₁.mem.word (0x2000 + 8 * k) = t₂.mem.word (0x2000 + 8 * k)) ∧
        (t₁.status.olen = 0#9 → t₁.resultLo = t₂.resultLo ∧ t₁.resultHi = t₂.resultHi))

/-- R37, R92, R112: a pending command is completed within as many steps as there are host accesses before it and one
more, or its missing operands are recorded as a model fault. That the engine has the turn when the script is used up is
the model's scheduler (model's choice, assumption 3). -/
def Obligations.PendingCommandIsCompleted : Prop :=
  ∀ s : State, s.status.busy = true → (∀ e ∈ s.script, InWindow e) →
    ∃ t : State, Sys2Proof.core.run (s.script.length + 1) s = .next t ∧ t.script = [] ∧
      (t.status.busy = false ∨ t.faults.uninitOperand = true)

/-- R101, R113: with no command pending and nothing to come from outside, nothing changes. That an engine's turn while
BUSY = 0 changes nothing but the script is the model's scheduler (assumption 3), and that a run has ended where only
engine's turns are left is the model's reading of R113 (assumption 15). -/
def Obligations.IdleMachineStaysAsItIs : Prop :=
  ∀ s : State, s.status.busy = false →
    (s.script = [] → step s = .next s) ∧
    (∀ rest, s.script = .engine :: rest → step s = .next (s.setScript rest)) ∧
    (s.runEnded = true → ∃ t, step s = .next t ∧ t.observe = s.observe ∧ t.runEnded = true)

/-- R97, R99: the block does not tell masters apart: the same access from another master has the same effect, and only
the answer goes to the other one. -/
def Obligations.MastersAreIndistinguishable : Prop :=
  ∀ (s : State) (m₁ m₂ a w : Nat) (v : F64) (rest : List Event) (t₁ t₂ : State),
    (step (s.setScript (.read m₁ a w :: rest)) = .next t₁ ∧ step (s.setScript (.read m₂ a w :: rest)) = .next t₂ ∨
      step (s.setScript (.write m₁ a w v :: rest)) = .next t₁ ∧
        step (s.setScript (.write m₂ a w v :: rest)) = .next t₂) →
    { t₁ with responses := [] } = { t₂ with responses := [] } ∧
      ∃ x, t₁.responses = ⟨m₁, x⟩ :: s.responses ∧ t₂.responses = ⟨m₂, x⟩ :: s.responses
end

