-- ==== Sys2Proof/Laws/Memory.lean ====
section
/-! SUPPORT. The laws of memory: what a byte, a half and a word read as after a store and in a snapshot, and that every
memory operation keeps the canonical form. -/

namespace Sys2Proof.Machine

@[simp] theorem Memory.byte_nil (a : Nat) : Memory.byte [] a = none := rfl

theorem Memory.byte_cons (c : Host.Cell) (m : Memory) (a : Nat) :
    Memory.byte (c :: m) a = if c.1 = a then some c.2 else Memory.byte m a := by
  by_cases h : c.1 = a <;> simp [Memory.byte, h]

theorem Memory.byte_append (m n : Memory) (a : Nat) :
    Memory.byte (m ++ n) a = (Memory.byte m a).or (Memory.byte n a) := by
  simp only [Memory.byte, List.find?_append]
  cases m.find? (fun c => c.1 == a) <;> simp

theorem Memory.byte_filter (p : Nat → Bool) (m : Memory) (a : Nat) :
    Memory.byte (m.filter (fun c => p c.1)) a = if p a then Memory.byte m a else none := by
  induction m with
  | nil => simp
  | cons c m ih =>
    by_cases hp : p c.1 <;> by_cases hc : c.1 = a
    · simp [hc ▸ hp, Memory.byte_cons, hc]
    · simp [hp, Memory.byte_cons, hc, ih]
    · have hpa : p a = false := by simpa [hc] using hp
      simp [hp, ih, hpa]
    · simp [hp, Memory.byte_cons, hc, ih]

theorem byte_cellsAt (bs : List Byte) (b a : Nat) :
    Memory.byte (cellsAt b bs) a = if b ≤ a then bs[a - b]? else none := by
  induction bs generalizing b with
  | nil => simp [cellsAt]
  | cons x bs ih =>
    simp only [cellsAt, Memory.byte_cons, ih]
    rcases Nat.lt_trichotomy b a with h | h | h
    · have h1 : a - b = (a - (b + 1)) + 1 := by omega
      simp [h.ne, h.le, Nat.succ_le_of_lt h, h1]
    · simp [h]
    · simp [h.ne', Nat.not_le.2 h, show ¬ b + 1 ≤ a by omega]

/-- A byte after a store: the stored byte inside the run, and the byte before outside it. -/
theorem Memory.byte_store (m : Memory) (b : Nat) (bs : List Byte) (a : Nat) :
    (m.store b bs).byte a = if b ≤ a ∧ a < b + bs.length then bs[a - b]? else m.byte a := by
  have hlo := Memory.byte_filter (fun x => decide (x < b)) m a
  have hhi := Memory.byte_filter (fun x => decide (b + bs.length ≤ x)) m a
  simp only [Memory.store, Memory.byte_append, byte_cellsAt, hlo, hhi, decide_eq_true_eq]
  by_cases h1 : a < b
  · simp [h1, Nat.not_le.2 h1, show ¬ b + bs.length ≤ a by omega]
  · by_cases h2 : a < b + bs.length
    · have h3 : a - b < bs.length := by omega
      simp [h1, Nat.not_lt.1 h1, h2, Nat.not_le.2 h2, List.getElem?_eq_getElem h3]
    · have h3 : bs[a - b]? = none := by simp; omega
      simp [h1, Nat.not_lt.1 h1, h2, Nat.not_lt.1 h2, h3]

theorem Memory.byte_store_outside (m : Memory) {b : Nat} {bs : List Byte} {a : Nat}
    (h : a < b ∨ b + bs.length ≤ a) : (m.store b bs).byte a = m.byte a := by
  rw [Memory.byte_store, if_neg (by omega)]

theorem Memory.byte_store_inside (m : Memory) {b : Nat} {bs : List Byte} {j : Nat} (h : j < bs.length) :
    (m.store b bs).byte (b + j) = some bs[j] := by
  rw [Memory.byte_store, if_pos (by omega)]
  simp [h]

/-- A byte of a snapshot is the buffer's byte, mark included (R36). -/
theorem Memory.byte_slice (m : Memory) (base len a : Nat) :
    (m.slice base len).byte a = if a < len then m.byte (base + a) else none := by
  induction m with
  | nil => simp [Memory.slice]
  | cons c m ih =>
    simp only [Memory.slice] at ih ⊢
    by_cases hc : base ≤ c.1 ∧ c.1 < base + len
    · rw [List.filter_cons_of_pos (by simpa using hc), List.map_cons, Memory.byte_cons, ih, Memory.byte_cons]
      by_cases h : c.1 = base + a
      · have ha : a < len := by omega
        simp [h, ha]
      · have : ¬ c.1 - base = a := by omega
        simp [h, this]
    · rw [List.filter_cons_of_neg (by simpa using hc), ih, Memory.byte_cons]
      by_cases ha : a < len
      · simp [ha, show c.1 ≠ base + a by omega]
      · simp [ha]

/-! ### The canonical form -/

theorem cellsAt_ge (bs : List Byte) (b : Nat) : ∀ c ∈ cellsAt b bs, b ≤ c.1 ∧ c.1 < b + bs.length := by
  induction bs generalizing b with
  | nil => simp [cellsAt]
  | cons x bs ih =>
    intro c hc
    rcases List.mem_cons.1 hc with rfl | hc
    · simp
    · have := ih (b + 1) c hc
      simp only [List.length_cons]
      omega

theorem wf_cellsAt (bs : List Byte) (b : Nat) : (cellsAt b bs : Memory).wf := by
  induction bs generalizing b with
  | nil => exact List.Pairwise.nil
  | cons x bs ih =>
    refine List.Pairwise.cons (fun c hc => ?_) (ih (b + 1))
    have := cellsAt_ge bs (b + 1) c hc
    simp only
    omega

/-- A store keeps the canonical form. -/
theorem Memory.wf_store {m : Memory} (h : m.wf) (b : Nat) (bs : List Byte) : (m.store b bs).wf := by
  unfold Memory.store
  refine List.pairwise_append.2 ⟨List.pairwise_append.2 ⟨h.filter _, wf_cellsAt bs b, ?_⟩, h.filter _, ?_⟩
  · intro x hx y hy
    have := cellsAt_ge bs b y hy
    simp only [List.mem_filter, decide_eq_true_eq] at hx
    omega
  · intro x hx y hy
    simp only [List.mem_append, List.mem_filter, decide_eq_true_eq] at hx hy
    rcases hx with hx | hx
    · omega
    · have := cellsAt_ge bs b x hx
      omega

/-- A snapshot of a canonical memory is canonical. -/
theorem Memory.wf_slice {m : Memory} (h : m.wf) (base len : Nat) : (m.slice base len).wf := by
  unfold Memory.slice Memory.wf
  rw [List.pairwise_map]
  refine (h.filter _).imp_of_mem fun {x y} hx hy hxy => ?_
  simp only [List.mem_filter, Bool.and_eq_true, decide_eq_true_eq] at hx hy
  simp only
  omega

/-- The cells of a store are the stored ones and the old ones. -/
theorem Memory.mem_store {m : Memory} {b : Nat} {bs : List Byte} {c : Host.Cell} (h : c ∈ m.store b bs) :
    c ∈ m ∨ (b ≤ c.1 ∧ c.1 < b + bs.length) := by
  simp only [Memory.store, List.mem_append, List.mem_filter] at h
  rcases h with (h | h) | h
  · exact .inl h.1
  · exact .inr (cellsAt_ge bs b c h)
  · exact .inl h.1

/-- The cells of a snapshot lie in its length. -/
theorem Memory.mem_slice {m : Memory} {base len : Nat} {c : Host.Cell} (h : c ∈ m.slice base len) : c.1 < len := by
  simp only [Memory.slice, List.mem_map, List.mem_filter, Bool.and_eq_true, decide_eq_true_eq] at h
  obtain ⟨d, ⟨_, hd⟩, rfl⟩ := h
  simp only
  omega

/-! ### Halves and words -/

@[simp] theorem halfBytes_length (v : Word) : (halfBytes v).length = 4 := rfl

@[simp] theorem wordBytes_length (v : F64) : (wordBytes v).length = 8 := rfl

theorem flatMap_wordBytes_length (xs : List F64) : (xs.flatMap wordBytes).length = 8 * xs.length := by
  induction xs with
  | nil => rfl
  | cons x xs ih => simp [ih]; omega

/-- A byte of the low half is a byte of the word. -/
theorem lowHalf_byte (v : F64) {j : Nat} (h : j < 4) :
    (lowHalf v).extractLsb' (8 * j) 8 = v.extractLsb' (8 * j) 8 := by
  ext i hi
  simp [lowHalf, BitVec.getElem_extractLsb', show 8 * j + i < 32 by omega]

/-- A byte of the high half is a byte of the word, four places up. -/
theorem highHalf_byte (v : F64) {j : Nat} (h : j < 4) :
    (highHalf v).extractLsb' (8 * j) 8 = v.extractLsb' (8 * (4 + j)) 8 := by
  ext i hi
  simp only [highHalf, BitVec.getElem_extractLsb', BitVec.getLsbD_extractLsb', show 8 * j + i < 32 by omega,
    decide_true, Bool.true_and]
  congr 1
  omega

/-- Byte `j` of a half is its bits 8j+7 : 8j (R39). -/
theorem halfBytes_getElem (v : Word) {j : Nat} (h : j < 4) :
    (halfBytes v)[j]? = some (v.extractLsb' (8 * j) 8) := by
  interval_cases j <;> rfl

/-- Byte `j` of a word is its bits 8j+7 : 8j (R39). -/
theorem wordBytes_getElem (v : F64) {j : Nat} (h : j < 8) :
    (wordBytes v)[j]? = some (v.extractLsb' (8 * j) 8) := by
  by_cases h4 : j < 4
  · rw [wordBytes, List.getElem?_append_left (by simpa using h4), halfBytes_getElem _ h4, lowHalf_byte v h4]
  · rw [wordBytes, List.getElem?_append_right (by simpa using h4), halfBytes_length,
      halfBytes_getElem _ (by omega), highHalf_byte v (by omega), show 4 + (j - 4) = j by omega]

theorem Memory.half_congr {m n : Memory} {a b : Nat} (h : ∀ j < 4, m.byte (a + j) = n.byte (b + j)) :
    m.half a = n.half b := by
  have h0 := h 0 (by omega); have h1 := h 1 (by omega); have h2 := h 2 (by omega); have h3 := h 3 (by omega)
  simp only [Nat.add_zero] at h0
  simp only [Memory.half, h0, h1, h2, h3]

theorem Memory.word_congr {m n : Memory} {a b : Nat} (h : ∀ j < 8, m.byte (a + j) = n.byte (b + j)) :
    m.word a = n.word b := by
  have lo : m.half a = n.half b := Memory.half_congr fun j hj => h j (by omega)
  have hi : m.half (a + 4) = n.half (b + 4) := Memory.half_congr fun j hj => by
    have := h (4 + j) (by omega)
    simpa [Nat.add_assoc] using this
  simp only [Memory.word, lo, hi]

/-- Four bytes put together in little-endian order are the half they were cut from (R39). -/
theorem half_of_bytes {m : Memory} {a : Nat} {v : Word}
    (h : ∀ j < 4, m.byte (a + j) = some (v.extractLsb' (8 * j) 8)) : m.half a = some v := by
  have h0 := h 0 (by omega); have h1 := h 1 (by omega); have h2 := h 2 (by omega); have h3 := h 3 (by omega)
  simp only [Nat.add_zero] at h0
  simp only [Memory.half, h0, h1, h2, h3, Option.some.injEq]
  ext i hi
  simp only [BitVec.getElem_append, BitVec.getElem_extractLsb']
  split
  · simp [BitVec.getLsbD_eq_getElem hi]
  · split
    · rw [← BitVec.getLsbD_eq_getElem hi]; congr 1; omega
    · split
      · rw [← BitVec.getLsbD_eq_getElem hi]; congr 1; omega
      · rw [← BitVec.getLsbD_eq_getElem hi]; congr 1; omega

/-- Eight bytes put together in little-endian order are the word they were cut from (R39). -/
theorem word_of_bytes {m : Memory} {a : Nat} {v : F64}
    (h : ∀ j < 8, m.byte (a + j) = some (v.extractLsb' (8 * j) 8)) : m.word a = some v := by
  have lo : m.half a = some (lowHalf v) := half_of_bytes fun j hj => by
    rw [h j (by omega), lowHalf_byte v hj]
  have hi : m.half (a + 4) = some (highHalf v) := half_of_bytes fun j hj => by
    rw [Nat.add_assoc, h (4 + j) (by omega), highHalf_byte v hj]
  simp only [Memory.word, lo, hi, Option.some.injEq]
  ext i hi'
  simp only [lowHalf, highHalf, BitVec.getElem_append, BitVec.getElem_extractLsb']
  split
  · simp [BitVec.getLsbD_eq_getElem hi']
  · rw [← BitVec.getLsbD_eq_getElem hi']; congr 1; omega

theorem flatMap_wordBytes_getElem (xs : List F64) (k j : Nat) (hj : j < 8) :
    (xs.flatMap wordBytes)[8 * k + j]? = xs[k]?.map (fun v => v.extractLsb' (8 * j) 8) := by
  induction xs generalizing k with
  | nil => simp
  | cons x xs ih =>
    rw [List.flatMap_cons]
    cases k with
    | zero => rw [List.getElem?_append_left (by simpa using hj)]; simpa using wordBytes_getElem x hj
    | succ k =>
      rw [List.getElem?_append_right (by simp; omega)]
      simp only [wordBytes_length, List.getElem?_cons_succ]
      rw [← ih k]
      congr 1
      omega

/-- Word `k` after a vector is stored is the vector's word `k` (R48). -/
theorem Memory.word_store_vector (m : Memory) (base : Nat) (xs : List F64) {k : Nat} (h : k < xs.length) :
    (m.store base (xs.flatMap wordBytes)).word (base + 8 * k) = some xs[k] := by
  refine word_of_bytes fun j hj => ?_
  have hlen := flatMap_wordBytes_length xs
  rw [Memory.byte_store, if_pos (by omega), show base + 8 * k + j - base = 8 * k + j by omega,
    flatMap_wordBytes_getElem xs k j hj]
  simp [h]

/-- A word outside a store reads as before. -/
theorem Memory.word_store_outside (m : Memory) {b : Nat} {bs : List Byte} {a : Nat}
    (h : a + 8 ≤ b ∨ b + bs.length ≤ a) : (m.store b bs).word a = m.word a :=
  Memory.word_congr fun j hj => Memory.byte_store_outside m (by omega)

/-- A half outside a store reads as before. -/
theorem Memory.half_store_outside (m : Memory) {b : Nat} {bs : List Byte} {a : Nat}
    (h : a + 4 ≤ b ∨ b + bs.length ≤ a) : (m.store b bs).half a = m.half a :=
  Memory.half_congr fun j hj => Memory.byte_store_outside m (by omega)

/-- A 64-bit write is read back (R42). -/
theorem Memory.word_store_self (m : Memory) (a : Nat) (v : F64) : (m.store a (wordBytes v)).word a = some v := by
  simpa using Memory.word_store_vector m a [v] (k := 0) (by simp)

/-- A 32-bit write is read back (R42). -/
theorem Memory.half_store_self (m : Memory) (a : Nat) (v : Word) : (m.store a (halfBytes v)).half a = some v := by
  refine half_of_bytes fun j hj => ?_
  rw [Memory.byte_store, if_pos (by simp; omega), show a + j - a = j by omega, halfBytes_getElem v hj]

/-- A word of a snapshot is the buffer's word (R36). -/
theorem Memory.word_slice (m : Memory) (base : Nat) {len a : Nat} (h : a + 8 ≤ len) :
    (m.slice base len).word a = m.word (base + a) :=
  Memory.word_congr fun j hj => by
    rw [Memory.byte_slice, if_pos (by omega), Nat.add_assoc]

/-- The bytes of a half that is marked (R39). -/
theorem Memory.half_byte {m : Memory} {a : Nat} {x : Word} (h : m.half a = some x) {j : Nat} (hj : j < 4) :
    m.byte (a + j) = some (x.extractLsb' (8 * j) 8) := by
  unfold Memory.half at h
  split at h
  · next b0 b1 b2 b3 h0 h1 h2 h3 =>
    cases h
    have : j = 0 ∨ j = 1 ∨ j = 2 ∨ j = 3 := by omega
    rcases this with rfl | rfl | rfl | rfl
    all_goals
      first
        | rw [Nat.add_zero, h0]
        | rw [h1]
        | rw [h2]
        | rw [h3]
      congr 1
      ext i hi
      simp only [BitVec.getElem_extractLsb', BitVec.getLsbD_append]
    · simp [hi]
    · simp [hi]
    · rw [if_neg (by omega), if_neg (by omega), if_pos (by omega), show 8 * 2 + i - 8 - 8 = i by omega,
        BitVec.getLsbD_eq_getElem]
    · rw [if_neg (by omega), if_neg (by omega), if_neg (by omega), show 8 * 3 + i - 8 - 8 - 8 = i by omega,
        BitVec.getLsbD_eq_getElem]
  · cases h

/-- A half has no value exactly where one of its four bytes has none (R34). -/
theorem Memory.half_eq_none {m : Memory} {a : Nat} : m.half a = none ↔ ∃ j < 4, m.byte (a + j) = none := by
  constructor
  · intro h
    unfold Memory.half at h
    split at h
    · cases h
    · next hall =>
      by_contra hc
      push Not at hc
      obtain ⟨b0, h0⟩ := Option.ne_none_iff_exists'.1 (hc 0 (by omega))
      obtain ⟨b1, h1⟩ := Option.ne_none_iff_exists'.1 (hc 1 (by omega))
      obtain ⟨b2, h2⟩ := Option.ne_none_iff_exists'.1 (hc 2 (by omega))
      obtain ⟨b3, h3⟩ := Option.ne_none_iff_exists'.1 (hc 3 (by omega))
      exact hall b0 b1 b2 b3 h0 h1 h2 h3
  · rintro ⟨j, hj, h⟩
    cases hx : m.half a with
    | none => rfl
    | some x => rw [Memory.half_byte hx hj] at h; cases h

/-- A word has no value exactly where one of its eight bytes has none (R34). -/
theorem Memory.word_eq_none {m : Memory} {a : Nat} : m.word a = none ↔ ∃ j < 8, m.byte (a + j) = none := by
  have hw : m.word a = none ↔ m.half a = none ∨ m.half (a + 4) = none := by
    unfold Memory.word
    cases m.half a <;> cases m.half (a + 4) <;> simp
  rw [hw, Memory.half_eq_none, Memory.half_eq_none]
  constructor
  · rintro (⟨j, hj, h⟩ | ⟨j, hj, h⟩)
    · exact ⟨j, by omega, h⟩
    · exact ⟨4 + j, by omega, by rw [← Nat.add_assoc]; exact h⟩
  · rintro ⟨j, hj, h⟩
    by_cases h4 : j < 4
    · exact .inl ⟨j, h4, h⟩
    · exact .inr ⟨j - 4, by omega, by rw [show a + 4 + (j - 4) = a + j by omega]; exact h⟩

/-- The bytes of a word that is marked (R39). -/
theorem Memory.word_byte {m : Memory} {a : Nat} {x : F64} (h : m.word a = some x) {j : Nat} (hj : j < 8) :
    m.byte (a + j) = some (x.extractLsb' (8 * j) 8) := by
  unfold Memory.word at h
  split at h
  · next lo hi hl hh =>
    cases h
    by_cases h4 : j < 4
    · rw [Memory.half_byte hl h4]
      congr 1
      ext i hi'
      simp only [BitVec.getElem_extractLsb', BitVec.getLsbD_append]
      rw [if_pos (by omega)]
    · have h' := Memory.half_byte hh (j := j - 4) (by omega)
      rw [show a + 4 + (j - 4) = a + j by omega] at h'
      rw [h']
      congr 1
      ext i hi'
      simp only [BitVec.getElem_extractLsb', BitVec.getLsbD_append]
      rw [if_neg (by omega)]
      congr 1
      omega
  · cases h

/-- A word is its two halves, the low one at +0 and the high one at +4 (R39). -/
theorem Memory.word_eq_some {m : Memory} {a : Nat} {v : F64} :
    m.word a = some v ↔ m.half a = some (lowHalf v) ∧ m.half (a + 4) = some (highHalf v) := by
  constructor
  · intro h
    unfold Memory.word at h
    split at h
    · next lo hi hl hh =>
      cases h
      rw [hl, hh]
      constructor <;> congr 1 <;> ext i hi' <;>
        simp only [lowHalf, highHalf, BitVec.getElem_extractLsb', BitVec.getLsbD_append]
      · rw [if_pos (by omega), Nat.zero_add, BitVec.getLsbD_eq_getElem]
      · rw [if_neg (by omega), show 32 + i - 32 = i by omega, BitVec.getLsbD_eq_getElem]
    · cases h
  · rintro ⟨hl, hh⟩
    simp only [Memory.word, hl, hh]
    congr 1
    apply BitVec.eq_of_getLsbD_eq
    intro i hi'
    simp only [lowHalf, highHalf, BitVec.getLsbD_append, BitVec.getLsbD_extractLsb']
    split
    · simp [*]
    · rw [show 32 + (i - 32) = i by omega]
      simp
      omega

end Sys2Proof.Machine
end

