-- ==== Sys2Proof/Laws/State.lean ====
section
/-! SUPPORT. One lemma per field of State and of Status for each update, so that no proof unfolds a record update. -/

namespace Sys2Proof.Machine

section
variable (s : State)

@[simp] theorem State.setIe_ie (b : Bool) : (s.setIe b).ie = b := rfl
@[simp] theorem State.setIe_status (b : Bool) : (s.setIe b).status = s.status := rfl
@[simp] theorem State.setIe_cmd (b : Bool) : (s.setIe b).cmd = s.cmd := rfl
@[simp] theorem State.setIe_resultLo (b : Bool) : (s.setIe b).resultLo = s.resultLo := rfl
@[simp] theorem State.setIe_resultHi (b : Bool) : (s.setIe b).resultHi = s.resultHi := rfl
@[simp] theorem State.setIe_mem (b : Bool) : (s.setIe b).mem = s.mem := rfl
@[simp] theorem State.setIe_snap (b : Bool) : (s.setIe b).snap = s.snap := rfl
@[simp] theorem State.setIe_faults (b : Bool) : (s.setIe b).faults = s.faults := rfl
@[simp] theorem State.setIe_script (b : Bool) : (s.setIe b).script = s.script := rfl
@[simp] theorem State.setIe_responses (b : Bool) : (s.setIe b).responses = s.responses := rfl
@[simp] theorem State.setIe_draws (b : Bool) : (s.setIe b).draws = s.draws := rfl

@[simp] theorem State.setStatus_ie (x : Status) : (s.setStatus x).ie = s.ie := rfl
@[simp] theorem State.setStatus_status (x : Status) : (s.setStatus x).status = x := rfl
@[simp] theorem State.setStatus_cmd (x : Status) : (s.setStatus x).cmd = s.cmd := rfl
@[simp] theorem State.setStatus_resultLo (x : Status) : (s.setStatus x).resultLo = s.resultLo := rfl
@[simp] theorem State.setStatus_resultHi (x : Status) : (s.setStatus x).resultHi = s.resultHi := rfl
@[simp] theorem State.setStatus_mem (x : Status) : (s.setStatus x).mem = s.mem := rfl
@[simp] theorem State.setStatus_snap (x : Status) : (s.setStatus x).snap = s.snap := rfl
@[simp] theorem State.setStatus_faults (x : Status) : (s.setStatus x).faults = s.faults := rfl
@[simp] theorem State.setStatus_script (x : Status) : (s.setStatus x).script = s.script := rfl
@[simp] theorem State.setStatus_responses (x : Status) : (s.setStatus x).responses = s.responses := rfl
@[simp] theorem State.setStatus_draws (x : Status) : (s.setStatus x).draws = s.draws := rfl

@[simp] theorem State.setCmd_ie (w : Word) : (s.setCmd w).ie = s.ie := rfl
@[simp] theorem State.setCmd_status (w : Word) : (s.setCmd w).status = s.status := rfl
@[simp] theorem State.setCmd_cmd (w : Word) : (s.setCmd w).cmd = w := rfl
@[simp] theorem State.setCmd_resultLo (w : Word) : (s.setCmd w).resultLo = s.resultLo := rfl
@[simp] theorem State.setCmd_resultHi (w : Word) : (s.setCmd w).resultHi = s.resultHi := rfl
@[simp] theorem State.setCmd_mem (w : Word) : (s.setCmd w).mem = s.mem := rfl
@[simp] theorem State.setCmd_snap (w : Word) : (s.setCmd w).snap = s.snap := rfl
@[simp] theorem State.setCmd_faults (w : Word) : (s.setCmd w).faults = s.faults := rfl
@[simp] theorem State.setCmd_script (w : Word) : (s.setCmd w).script = s.script := rfl
@[simp] theorem State.setCmd_responses (w : Word) : (s.setCmd w).responses = s.responses := rfl
@[simp] theorem State.setCmd_draws (w : Word) : (s.setCmd w).draws = s.draws := rfl

@[simp] theorem State.setResult_ie (v : F64) : (s.setResult v).ie = s.ie := rfl
@[simp] theorem State.setResult_status (v : F64) : (s.setResult v).status = s.status := rfl
@[simp] theorem State.setResult_cmd (v : F64) : (s.setResult v).cmd = s.cmd := rfl
@[simp] theorem State.setResult_resultLo (v : F64) : (s.setResult v).resultLo = lowHalf v := rfl
@[simp] theorem State.setResult_resultHi (v : F64) : (s.setResult v).resultHi = highHalf v := rfl
@[simp] theorem State.setResult_mem (v : F64) : (s.setResult v).mem = s.mem := rfl
@[simp] theorem State.setResult_snap (v : F64) : (s.setResult v).snap = s.snap := rfl
@[simp] theorem State.setResult_faults (v : F64) : (s.setResult v).faults = s.faults := rfl
@[simp] theorem State.setResult_script (v : F64) : (s.setResult v).script = s.script := rfl
@[simp] theorem State.setResult_responses (v : F64) : (s.setResult v).responses = s.responses := rfl
@[simp] theorem State.setResult_draws (v : F64) : (s.setResult v).draws = s.draws := rfl

@[simp] theorem State.setMem_ie (m : Memory) : (s.setMem m).ie = s.ie := rfl
@[simp] theorem State.setMem_status (m : Memory) : (s.setMem m).status = s.status := rfl
@[simp] theorem State.setMem_cmd (m : Memory) : (s.setMem m).cmd = s.cmd := rfl
@[simp] theorem State.setMem_resultLo (m : Memory) : (s.setMem m).resultLo = s.resultLo := rfl
@[simp] theorem State.setMem_resultHi (m : Memory) : (s.setMem m).resultHi = s.resultHi := rfl
@[simp] theorem State.setMem_mem (m : Memory) : (s.setMem m).mem = m := rfl
@[simp] theorem State.setMem_snap (m : Memory) : (s.setMem m).snap = s.snap := rfl
@[simp] theorem State.setMem_faults (m : Memory) : (s.setMem m).faults = s.faults := rfl
@[simp] theorem State.setMem_script (m : Memory) : (s.setMem m).script = s.script := rfl
@[simp] theorem State.setMem_responses (m : Memory) : (s.setMem m).responses = s.responses := rfl
@[simp] theorem State.setMem_draws (m : Memory) : (s.setMem m).draws = s.draws := rfl

@[simp] theorem State.setSnap_ie (m : Memory) : (s.setSnap m).ie = s.ie := rfl
@[simp] theorem State.setSnap_status (m : Memory) : (s.setSnap m).status = s.status := rfl
@[simp] theorem State.setSnap_cmd (m : Memory) : (s.setSnap m).cmd = s.cmd := rfl
@[simp] theorem State.setSnap_resultLo (m : Memory) : (s.setSnap m).resultLo = s.resultLo := rfl
@[simp] theorem State.setSnap_resultHi (m : Memory) : (s.setSnap m).resultHi = s.resultHi := rfl
@[simp] theorem State.setSnap_mem (m : Memory) : (s.setSnap m).mem = s.mem := rfl
@[simp] theorem State.setSnap_snap (m : Memory) : (s.setSnap m).snap = m := rfl
@[simp] theorem State.setSnap_faults (m : Memory) : (s.setSnap m).faults = s.faults := rfl
@[simp] theorem State.setSnap_script (m : Memory) : (s.setSnap m).script = s.script := rfl
@[simp] theorem State.setSnap_responses (m : Memory) : (s.setSnap m).responses = s.responses := rfl
@[simp] theorem State.setSnap_draws (m : Memory) : (s.setSnap m).draws = s.draws := rfl

@[simp] theorem State.recordFault_ie (f : ModelFault) : (s.recordFault f).ie = s.ie := rfl
@[simp] theorem State.recordFault_status (f : ModelFault) : (s.recordFault f).status = s.status := rfl
@[simp] theorem State.recordFault_cmd (f : ModelFault) : (s.recordFault f).cmd = s.cmd := rfl
@[simp] theorem State.recordFault_resultLo (f : ModelFault) : (s.recordFault f).resultLo = s.resultLo := rfl
@[simp] theorem State.recordFault_resultHi (f : ModelFault) : (s.recordFault f).resultHi = s.resultHi := rfl
@[simp] theorem State.recordFault_mem (f : ModelFault) : (s.recordFault f).mem = s.mem := rfl
@[simp] theorem State.recordFault_snap (f : ModelFault) : (s.recordFault f).snap = s.snap := rfl
@[simp] theorem State.recordFault_faults (f : ModelFault) : (s.recordFault f).faults = s.faults.record f := rfl
@[simp] theorem State.recordFault_script (f : ModelFault) : (s.recordFault f).script = s.script := rfl
@[simp] theorem State.recordFault_responses (f : ModelFault) : (s.recordFault f).responses = s.responses := rfl
@[simp] theorem State.recordFault_draws (f : ModelFault) : (s.recordFault f).draws = s.draws := rfl

@[simp] theorem State.setScript_ie (es : List Event) : (s.setScript es).ie = s.ie := rfl
@[simp] theorem State.setScript_status (es : List Event) : (s.setScript es).status = s.status := rfl
@[simp] theorem State.setScript_cmd (es : List Event) : (s.setScript es).cmd = s.cmd := rfl
@[simp] theorem State.setScript_resultLo (es : List Event) : (s.setScript es).resultLo = s.resultLo := rfl
@[simp] theorem State.setScript_resultHi (es : List Event) : (s.setScript es).resultHi = s.resultHi := rfl
@[simp] theorem State.setScript_mem (es : List Event) : (s.setScript es).mem = s.mem := rfl
@[simp] theorem State.setScript_snap (es : List Event) : (s.setScript es).snap = s.snap := rfl
@[simp] theorem State.setScript_faults (es : List Event) : (s.setScript es).faults = s.faults := rfl
@[simp] theorem State.setScript_script (es : List Event) : (s.setScript es).script = es := rfl
@[simp] theorem State.setScript_responses (es : List Event) : (s.setScript es).responses = s.responses := rfl
@[simp] theorem State.setScript_draws (es : List Event) : (s.setScript es).draws = s.draws := rfl

@[simp] theorem State.respond_ie (k : Nat) (x : Answer) : (s.respond k x).ie = s.ie := rfl
@[simp] theorem State.respond_status (k : Nat) (x : Answer) : (s.respond k x).status = s.status := rfl
@[simp] theorem State.respond_cmd (k : Nat) (x : Answer) : (s.respond k x).cmd = s.cmd := rfl
@[simp] theorem State.respond_resultLo (k : Nat) (x : Answer) : (s.respond k x).resultLo = s.resultLo := rfl
@[simp] theorem State.respond_resultHi (k : Nat) (x : Answer) : (s.respond k x).resultHi = s.resultHi := rfl
@[simp] theorem State.respond_mem (k : Nat) (x : Answer) : (s.respond k x).mem = s.mem := rfl
@[simp] theorem State.respond_snap (k : Nat) (x : Answer) : (s.respond k x).snap = s.snap := rfl
@[simp] theorem State.respond_faults (k : Nat) (x : Answer) : (s.respond k x).faults = s.faults := rfl
@[simp] theorem State.respond_script (k : Nat) (x : Answer) : (s.respond k x).script = s.script := rfl
@[simp] theorem State.respond_responses (k : Nat) (x : Answer) : (s.respond k x).responses = ⟨k, x⟩ :: s.responses := rfl
@[simp] theorem State.respond_draws (k : Nat) (x : Answer) : (s.respond k x).draws = s.draws := rfl

@[simp] theorem State.nextDraw_ie : (s.nextDraw).ie = s.ie := rfl
@[simp] theorem State.nextDraw_status : (s.nextDraw).status = s.status := rfl
@[simp] theorem State.nextDraw_cmd : (s.nextDraw).cmd = s.cmd := rfl
@[simp] theorem State.nextDraw_resultLo : (s.nextDraw).resultLo = s.resultLo := rfl
@[simp] theorem State.nextDraw_resultHi : (s.nextDraw).resultHi = s.resultHi := rfl
@[simp] theorem State.nextDraw_mem : (s.nextDraw).mem = s.mem := rfl
@[simp] theorem State.nextDraw_snap : (s.nextDraw).snap = s.snap := rfl
@[simp] theorem State.nextDraw_faults : (s.nextDraw).faults = s.faults := rfl
@[simp] theorem State.nextDraw_script : (s.nextDraw).script = s.script := rfl
@[simp] theorem State.nextDraw_responses : (s.nextDraw).responses = s.responses := rfl
@[simp] theorem State.nextDraw_draws : (s.nextDraw).draws = s.draws + 1 := rfl

@[simp] theorem State.accept_ie (w : Word) : (s.accept w).ie = s.ie := rfl
@[simp] theorem State.accept_status (w : Word) : (s.accept w).status = s.status.accept := rfl
@[simp] theorem State.accept_cmd (w : Word) : (s.accept w).cmd = w := rfl
@[simp] theorem State.accept_resultLo (w : Word) : (s.accept w).resultLo = s.resultLo := rfl
@[simp] theorem State.accept_resultHi (w : Word) : (s.accept w).resultHi = s.resultHi := rfl
@[simp] theorem State.accept_mem (w : Word) : (s.accept w).mem = s.mem := rfl
@[simp] theorem State.accept_snap (w : Word) : (s.accept w).snap = s.mem.slice (bufferBase (sourceOf w)) Config.bufBytes := rfl
@[simp] theorem State.accept_faults (w : Word) : (s.accept w).faults = s.faults := rfl
@[simp] theorem State.accept_script (w : Word) : (s.accept w).script = s.script := rfl
@[simp] theorem State.accept_responses (w : Word) : (s.accept w).responses = s.responses := rfl
@[simp] theorem State.accept_draws (w : Word) : (s.accept w).draws = s.draws := rfl

@[simp] theorem raiseError_ie (e : CmdError) : (raiseError e s).ie = s.ie := rfl
@[simp] theorem raiseError_status (e : CmdError) : (raiseError e s).status = s.status.fail e := rfl
@[simp] theorem raiseError_cmd (e : CmdError) : (raiseError e s).cmd = s.cmd := rfl
@[simp] theorem raiseError_resultLo (e : CmdError) : (raiseError e s).resultLo = s.resultLo := rfl
@[simp] theorem raiseError_resultHi (e : CmdError) : (raiseError e s).resultHi = s.resultHi := rfl
@[simp] theorem raiseError_mem (e : CmdError) : (raiseError e s).mem = s.mem := rfl
@[simp] theorem raiseError_snap (e : CmdError) : (raiseError e s).snap = s.snap := rfl
@[simp] theorem raiseError_faults (e : CmdError) : (raiseError e s).faults = s.faults := rfl
@[simp] theorem raiseError_script (e : CmdError) : (raiseError e s).script = s.script := rfl
@[simp] theorem raiseError_responses (e : CmdError) : (raiseError e s).responses = s.responses := rfl
@[simp] theorem raiseError_draws (e : CmdError) : (raiseError e s).draws = s.draws := rfl

@[simp] theorem acknowledge_ie (v : Word) : (acknowledge v s).ie = s.ie := rfl
@[simp] theorem acknowledge_status (v : Word) : (acknowledge v s).status = s.status.clearBits v := rfl
@[simp] theorem acknowledge_cmd (v : Word) : (acknowledge v s).cmd = s.cmd := rfl
@[simp] theorem acknowledge_resultLo (v : Word) : (acknowledge v s).resultLo = s.resultLo := rfl
@[simp] theorem acknowledge_resultHi (v : Word) : (acknowledge v s).resultHi = s.resultHi := rfl
@[simp] theorem acknowledge_mem (v : Word) : (acknowledge v s).mem = s.mem := rfl
@[simp] theorem acknowledge_snap (v : Word) : (acknowledge v s).snap = s.snap := rfl
@[simp] theorem acknowledge_faults (v : Word) : (acknowledge v s).faults = s.faults := rfl
@[simp] theorem acknowledge_script (v : Word) : (acknowledge v s).script = s.script := rfl
@[simp] theorem acknowledge_responses (v : Word) : (acknowledge v s).responses = s.responses := rfl
@[simp] theorem acknowledge_draws (v : Word) : (acknowledge v s).draws = s.draws := rfl

@[simp] theorem finishVector_ie (n : Nat) (xs : List F64) : (finishVector n xs s).ie = s.ie := rfl
@[simp] theorem finishVector_status (n : Nat) (xs : List F64) : (finishVector n xs s).status = s.status.succeed n := rfl
@[simp] theorem finishVector_cmd (n : Nat) (xs : List F64) : (finishVector n xs s).cmd = s.cmd := rfl
@[simp] theorem finishVector_resultLo (n : Nat) (xs : List F64) : (finishVector n xs s).resultLo = s.resultLo := rfl
@[simp] theorem finishVector_resultHi (n : Nat) (xs : List F64) : (finishVector n xs s).resultHi = s.resultHi := rfl
@[simp] theorem finishVector_mem (n : Nat) (xs : List F64) : (finishVector n xs s).mem = s.mem.store Config.obufBase (xs.flatMap wordBytes) := rfl
@[simp] theorem finishVector_snap (n : Nat) (xs : List F64) : (finishVector n xs s).snap = s.snap := rfl
@[simp] theorem finishVector_faults (n : Nat) (xs : List F64) : (finishVector n xs s).faults = s.faults := rfl
@[simp] theorem finishVector_script (n : Nat) (xs : List F64) : (finishVector n xs s).script = s.script := rfl
@[simp] theorem finishVector_responses (n : Nat) (xs : List F64) : (finishVector n xs s).responses = s.responses := rfl
@[simp] theorem finishVector_draws (n : Nat) (xs : List F64) : (finishVector n xs s).draws = s.draws + 1 := rfl

@[simp] theorem finishScalar_ie (v : F64) : (finishScalar v s).ie = s.ie := rfl
@[simp] theorem finishScalar_status (v : F64) : (finishScalar v s).status = s.status.succeed 0 := rfl
@[simp] theorem finishScalar_cmd (v : F64) : (finishScalar v s).cmd = s.cmd := rfl
@[simp] theorem finishScalar_resultLo (v : F64) : (finishScalar v s).resultLo = lowHalf v := rfl
@[simp] theorem finishScalar_resultHi (v : F64) : (finishScalar v s).resultHi = highHalf v := rfl
@[simp] theorem finishScalar_mem (v : F64) : (finishScalar v s).mem = s.mem := rfl
@[simp] theorem finishScalar_snap (v : F64) : (finishScalar v s).snap = s.snap := rfl
@[simp] theorem finishScalar_faults (v : F64) : (finishScalar v s).faults = s.faults := rfl
@[simp] theorem finishScalar_script (v : F64) : (finishScalar v s).script = s.script := rfl
@[simp] theorem finishScalar_responses (v : F64) : (finishScalar v s).responses = s.responses := rfl
@[simp] theorem finishScalar_draws (v : F64) : (finishScalar v s).draws = s.draws := rfl

@[simp] theorem platformReset_ie : (platformReset s).ie = false := rfl
@[simp] theorem platformReset_status : (platformReset s).status = Status.reset := rfl
@[simp] theorem platformReset_cmd : (platformReset s).cmd = 0#32 := rfl
@[simp] theorem platformReset_resultLo : (platformReset s).resultLo = 0#32 := rfl
@[simp] theorem platformReset_resultHi : (platformReset s).resultHi = 0#32 := rfl
@[simp] theorem platformReset_mem : (platformReset s).mem = [] := rfl
@[simp] theorem platformReset_snap : (platformReset s).snap = [] := rfl
@[simp] theorem platformReset_faults : (platformReset s).faults = s.faults := rfl
@[simp] theorem platformReset_script : (platformReset s).script = s.script := rfl
@[simp] theorem platformReset_responses : (platformReset s).responses = s.responses := rfl
@[simp] theorem platformReset_draws : (platformReset s).draws = s.draws := rfl

end

section
variable (t : Status)

@[simp] theorem Status.accept_busy : (t.accept).busy = true := rfl
@[simp] theorem Status.accept_done : (t.accept).done = false := rfl
@[simp] theorem Status.accept_err : (t.accept).err = false := rfl
@[simp] theorem Status.accept_werr : (t.accept).werr = t.werr := rfl
@[simp] theorem Status.accept_errcode : (t.accept).errcode = 0#4 := rfl
@[simp] theorem Status.accept_olen : (t.accept).olen = t.olen := rfl

@[simp] theorem Status.succeed_busy (n : Nat) : (t.succeed n).busy = false := rfl
@[simp] theorem Status.succeed_done (n : Nat) : (t.succeed n).done = true := rfl
@[simp] theorem Status.succeed_err (n : Nat) : (t.succeed n).err = t.err := rfl
@[simp] theorem Status.succeed_werr (n : Nat) : (t.succeed n).werr = t.werr := rfl
@[simp] theorem Status.succeed_errcode (n : Nat) : (t.succeed n).errcode = t.errcode := rfl
@[simp] theorem Status.succeed_olen (n : Nat) : (t.succeed n).olen = BitVec.ofNat 9 n := rfl

@[simp] theorem Status.fail_busy (e : CmdError) : (t.fail e).busy = false := rfl
@[simp] theorem Status.fail_done (e : CmdError) : (t.fail e).done = t.done := rfl
@[simp] theorem Status.fail_err (e : CmdError) : (t.fail e).err = true := rfl
@[simp] theorem Status.fail_werr (e : CmdError) : (t.fail e).werr = t.werr := rfl
@[simp] theorem Status.fail_errcode (e : CmdError) : (t.fail e).errcode = e.code := rfl
@[simp] theorem Status.fail_olen (e : CmdError) : (t.fail e).olen = t.olen := rfl

@[simp] theorem Status.writeDropped_busy : (t.writeDropped).busy = t.busy := rfl
@[simp] theorem Status.writeDropped_done : (t.writeDropped).done = t.done := rfl
@[simp] theorem Status.writeDropped_err : (t.writeDropped).err = t.err := rfl
@[simp] theorem Status.writeDropped_werr : (t.writeDropped).werr = true := rfl
@[simp] theorem Status.writeDropped_errcode : (t.writeDropped).errcode = t.errcode := rfl
@[simp] theorem Status.writeDropped_olen : (t.writeDropped).olen = t.olen := rfl

@[simp] theorem Status.clearBits_busy (v : Word) : (t.clearBits v).busy = t.busy := rfl
@[simp] theorem Status.clearBits_done (v : Word) : (t.clearBits v).done = (t.done && !v.getLsbD 1) := rfl
@[simp] theorem Status.clearBits_err (v : Word) : (t.clearBits v).err = (t.err && !v.getLsbD 2) := rfl
@[simp] theorem Status.clearBits_werr (v : Word) : (t.clearBits v).werr = (t.werr && !v.getLsbD 3) := rfl
@[simp] theorem Status.clearBits_errcode (v : Word) : (t.clearBits v).errcode = (if v.getLsbD 2 then 0#4 else t.errcode) := rfl
@[simp] theorem Status.clearBits_olen (v : Word) : (t.clearBits v).olen = t.olen := rfl

end

/-- Recording a model fault keeps the faults recorded before (R90). -/
theorem FaultSet.has_record (fs : FaultSet) (f g : ModelFault) :
    (fs.record f).has g = (fs.has g || decide (f = g)) := by
  cases f <;> cases g <;> simp [FaultSet.record, FaultSet.has]

end Sys2Proof.Machine
end

