-- ==== Sys2Proof/Laws/Bus.lean ====
section
/-! SUPPORT. Everything that a host access can do, said once. -/

namespace Sys2Proof.Machine

/-- What a host read can do: it is refused, answered, answered with a draw, or a model fault (R41, R46, R108). -/
inductive ReadEnds (s : State) (master : Nat) : State → Prop where
  | refused : ReadEnds s master (refuseAccess master s)
  | answered (v : F64) : ReadEnds s master (s.respond master (.data v))
  | drawn (w : Nat) : ReadEnds s master (readUnspecified master w s)
  | uninit : ReadEnds s master ((s.recordFault .uninitRead).respond master .noValue)
  | uninitDrawn (w : Nat) : ReadEnds s master ((readUnspecified master w s).recordFault .uninitRead)

theorem readBuffer_ends (master a w : Nat) (s : State) : ReadEnds s master (readBuffer master a w s) := by
  unfold readBuffer
  split
  · exact .answered _
  · exact .uninit

theorem hostRead_ends (master a w : Nat) (s : State) : ReadEnds s master (hostRead master a w s) := by
  unfold hostRead
  split
  · exact .refused
  · cases targetOf a
    case resultLo =>
      simp only [readResult]
      split
      · exact .drawn _
      · exact .answered _
    case resultHi =>
      simp only [readResult]
      split
      · exact .drawn _
      · exact .answered _
    case ibuf => exact readBuffer_ends master a w s
    case obuf =>
      simp only [readObuf]
      split
      · split
        · exact .drawn _
        · exact .uninitDrawn _
      · exact readBuffer_ends master a w s
    all_goals exact .answered _

/-- A read changes none of this (R44). -/
theorem ReadEnds.frame {s t : State} {master : Nat} (h : ReadEnds s master t) :
    t.ie = s.ie ∧ t.status = s.status ∧ t.cmd = s.cmd ∧ t.resultLo = s.resultLo ∧ t.resultHi = s.resultHi ∧
      t.mem = s.mem ∧ t.snap = s.snap ∧ t.script = s.script := by
  cases h <;> simp [refuseAccess, readUnspecified]

/-- What a read leaves of the model's own fields and the fault set. -/
theorem ReadEnds.answer {s t : State} {master : Nat} (h : ReadEnds s master t) :
    ∃ x, t.responses = ⟨master, x⟩ :: s.responses := by
  cases h <;> simp [refuseAccess, readUnspecified]

/-- The offsets of IBUF (R45). -/
theorem inIbuf_iff {a : Nat} : inIbuf a = true ↔ 0x1000 ≤ a ∧ a < 0x1800 := by
  simp only [inIbuf, Config.ibufBase, Config.bufBytes, Bool.and_eq_true, decide_eq_true_eq]

/-- The offsets of OBUF (R45). -/
theorem inObuf_iff {a : Nat} : inObuf a = true ↔ 0x2000 ≤ a ∧ a < 0x2800 := by
  simp only [inObuf, Config.obufBase, Config.bufBytes, Bool.and_eq_true, decide_eq_true_eq]

/-- The admitted accesses (R40). -/
theorem admitted_iff {a w : Nat} :
    admitted a w = true ↔
      (w = 4 ∧ a % 4 = 0) ∨ (w = 8 ∧ a % 8 = 0 ∧ ((0x1000 ≤ a ∧ a < 0x1800) ∨ (0x2000 ≤ a ∧ a < 0x2800))) := by
  simp [admitted, inIbuf_iff, inObuf_iff, and_assoc]

/-- What stands in IBUF (R45). -/
theorem targetOf_of_ibuf {a : Nat} (h : inIbuf a = true) : targetOf a = .ibuf := by
  have := inIbuf_iff.1 h
  simp [targetOf, h, show a ≠ 0 by omega, show a ≠ 4 by omega, show a ≠ 8 by omega, show a ≠ 12 by omega,
    show a ≠ 16 by omega, show a ≠ 20 by omega, show a ≠ 24 by omega]

/-- What stands in OBUF (R45). -/
theorem targetOf_of_obuf {a : Nat} (h : inObuf a = true) : targetOf a = .obuf := by
  have := inObuf_iff.1 h
  have hi : inIbuf a = false := by
    rw [← Bool.not_eq_true, inIbuf_iff]
    omega
  simp [targetOf, h, hi, show a ≠ 0 by omega, show a ≠ 4 by omega, show a ≠ 8 by omega, show a ≠ 12 by omega,
    show a ≠ 16 by omega, show a ≠ 20 by omega, show a ≠ 24 by omega]

/-- Only an IBUF offset is a target of stores. -/
theorem targetOf_ibuf {a : Nat} (h : targetOf a = .ibuf) : inIbuf a = true := by
  unfold targetOf at h
  split_ifs at h
  assumption

/-- A bit of a written value's low half is that bit of the value. -/
theorem lowHalf_getLsbD (v : F64) {i : Nat} (h : i < 32) : (lowHalf v).getLsbD i = v.getLsbD i := by
  simp [lowHalf, h]

/-- The stored bytes are as many as the width says (R42). -/
theorem storeBytes_length {a w : Nat} (h : admitted a w = true) (v : F64) : (storeBytes w v).length = w := by
  rcases admitted_iff.1 h with ⟨rfl, _⟩ | ⟨rfl, _⟩ <;> simp [storeBytes]

/-- Byte `j` of a stored value is its bits 8j+7 : 8j (R39). -/
theorem storeBytes_getElem {a w : Nat} (h : admitted a w = true) (v : F64) {j : Nat} (hj : j < w) :
    (storeBytes w v)[j]? = some (v.extractLsb' (8 * j) 8) := by
  rcases admitted_iff.1 h with ⟨rfl, _⟩ | ⟨rfl, _⟩
  · simp [storeBytes, halfBytes_getElem _ hj, lowHalf_byte _ hj]
  · simp [storeBytes, wordBytes_getElem _ hj]

/-- What an admitted write can do (R47). -/
inductive WriteEnds (a w : Nat) (v : F64) (s : State) : State → Prop where
  | ignored : WriteEnds a w v s s
  | control : WriteEnds a w v s (s.setIe ((lowHalf v).getLsbD 0))
  | cleared (place : a = 0x008) : WriteEnds a w v s (acknowledge (lowHalf v) s)
  | dropped (busy : s.status.busy = true) (place : a = 0x00C ∨ inIbuf a = true) :
      WriteEnds a w v s (s.setStatus s.status.writeDropped)
  | stored (busy : s.status.busy = false) (place : inIbuf a = true) :
      WriteEnds a w v s (s.setMem (s.mem.store a (storeBytes w v)))
  | accepted (busy : s.status.busy = false) (place : a = 0x00C) : WriteEnds a w v s (s.accept (lowHalf v))

theorem targetOf_cmd {a : Nat} (h : targetOf a = .cmd) : a = 0x00C := by
  unfold targetOf at h
  split_ifs at h
  assumption

theorem targetOf_status {a : Nat} (h : targetOf a = .status) : a = 0x008 := by
  unfold targetOf at h
  split_ifs at h
  assumption

theorem writeTarget_ends (a w : Nat) (v : F64) (s : State) : WriteEnds a w v s (writeTarget a w v s) := by
  unfold writeTarget
  split
  case h_1 h =>
    unfold writeIbuf
    split
    · next hb => exact .dropped hb (.inr (targetOf_ibuf h))
    · next hb => exact .stored (by simpa using hb) (targetOf_ibuf h)
  case h_2 => exact .control
  case h_3 h => exact .cleared (targetOf_status h)
  case h_4 h =>
    unfold writeCmd
    split
    · next hb => exact .dropped hb (.inl (targetOf_cmd h))
    · next hb => exact .accepted (by simpa using hb) (targetOf_cmd h)
  all_goals exact .ignored

/-- A write changes none of this (R47). -/
theorem WriteEnds.frame {a w : Nat} {v : F64} {s t : State} (h : WriteEnds a w v s t) :
    t.resultLo = s.resultLo ∧ t.resultHi = s.resultHi ∧ t.faults = s.faults ∧ t.script = s.script ∧
      t.responses = s.responses ∧ t.draws = s.draws ∧ t.status.olen = s.status.olen := by
  cases h <;> simp

end Sys2Proof.Machine
end

