-- ==== Sys2Proof/Laws/Operands.lean ====
section
/-! SUPPORT. What the operand forms read. -/

namespace Sys2Proof.Machine

theorem collect_eq_some {l : List (Option F64)} {v : List F64} : collect l = some v ↔ l = v.map some := by
  induction l generalizing v with
  | nil => cases v <;> simp [collect]
  | cons x l ih =>
    cases x with
    | none => cases v <;> simp [collect]
    | some x =>
      simp only [collect, Option.map_eq_some_iff, ih]
      cases v with
      | nil => simp
      | cons y v =>
        simp only [List.cons.injEq, List.map_cons, Option.some.injEq]
        constructor
        · rintro ⟨a, h, rfl, rfl⟩; exact ⟨rfl, h⟩
        · rintro ⟨rfl, h⟩; exact ⟨v, h, rfl, rfl⟩

theorem collect_eq_none {l : List (Option F64)} : collect l = none ↔ none ∈ l := by
  induction l with
  | nil => simp [collect]
  | cons x l ih => cases x <;> simp [collect, ih]

/-- The operand vector, where every half is initialised (R72, R78). -/
theorem operandVector_some {s : State} {n : Nat} {x : Nat → F64} (h : ∀ k < n, s.snap.word (8 * k) = some (x k)) :
    operandVector s n = some ((List.range n).map x) := by
  rw [operandVector, collect_eq_some, List.map_map]
  exact List.map_congr_left fun k hk => h k (List.mem_range.1 hk)

/-- The operands are missing exactly where some word of them is not initialised (R90). -/
theorem operandVector_none {s : State} {n : Nat} :
    operandVector s n = none ↔ ∃ k < n, s.snap.word (8 * k) = none := by
  simp only [operandVector, collect_eq_none, List.mem_map, List.mem_range]

theorem operandVector_length {s : State} {n : Nat} {v : List F64} (h : operandVector s n = some v) : v.length = n := by
  have := congrArg List.length (collect_eq_some.1 h)
  simpa using this.symm

/-- The operands depend on the snapshot alone (R93). -/
theorem operandVector_congr {s t : State} (h : s.snap = t.snap) (n : Nat) : operandVector s n = operandVector t n := by
  simp only [operandVector, h]

@[simp] theorem elem_map_range (f : Nat → F64) {n k : Nat} (h : k < n) : elem ((List.range n).map f) k = f k := by
  simp [elem, h]

/-- The ratios that chain, and in which direction (R81). -/
theorem resampleStages_eq_some {big small n : Nat} :
    resampleStages big small = some n ↔ (big = small + 3 ∧ n = 1) ∨ (big = small + 6 ∧ n = 2) := by
  simp only [resampleStages, Config.stageLog]
  split_ifs <;> simp <;> omega

/-- Every other ratio and direction has no sequence of stages (R81). -/
theorem resampleStages_eq_none {big small : Nat} :
    resampleStages big small = none ↔ big ≠ small + 3 ∧ big ≠ small + 6 := by
  simp only [resampleStages, Config.stageLog]
  split_ifs <;> simp <;> omega

/-- The ratio of two sizes is 8, in either direction (R67). -/
theorem ratioIsEight_iff {la lb : Nat} : ratioIsEight la lb = true ↔ la = lb + 3 ∨ lb = la + 3 := by
  simp [ratioIsEight, Config.stageLog]

end Sys2Proof.Machine
end

