-- ==== Sys2Proof/Laws/Exec.lean ====
section
/-! SUPPORT. Everything that a command's completion can do, said once: an error, an operand fault, a vector result or a
scalar result. -/

namespace Sys2Proof.Machine

theorem leeF_length (c : Config.OpSite → F64) (l : Nat) (p : List Config.Branch) (v : List F64) :
    (leeF c l p v).length = 2 ^ l := by
  cases l <;> simp [leeF]

theorem dct3_length (c : Config.OpSite → F64) (l : Nat) (p : List Config.Branch) (v : List F64) :
    (dct3 c l p v).length = 2 ^ l := by
  cases l <;> simp [dct3]

theorem fwdVector_length (c : Config.OpSite → F64) (l : Nat) (v : List F64) : (fwdVector c l v).length = 2 ^ l := by
  simp [fwdVector]

theorem invVector_length (c : Config.OpSite → F64) (l : Nat) (v : List F64) : (invVector c l v).length = 2 ^ l :=
  dct3_length c l [] v

theorem downVector_length (c : Config.OpSite → F64) (a b n : Nat) (v : List F64) :
    (downVector c a b n v).length = 2 ^ b := by
  simp [downVector]

theorem upVector_length (c : Config.OpSite → F64) (a b n : Nat) (v : List F64) : (upVector c a b n v).length = 2 ^ b := by
  simp [upVector]

/-- The supported sizes, as logarithms (R6). -/
theorem sizeSupported_iff {l : Nat} : sizeSupported l = true ↔ l ≤ 8 := by
  simp [sizeSupported]

/-- A supported size is at most 256 (R6). -/
theorem size_le {l : Nat} (h : sizeSupported l = true) : 2 ^ l ≤ 256 := by
  calc 2 ^ l ≤ 2 ^ 8 := Nat.pow_le_pow_right (by omega) (sizeSupported_iff.1 h)
    _ = 256 := by norm_num

/-- How a command ends: the four cases of R90 and R92. -/
inductive Ends (s : State) : State → Prop where
  | error (e : CmdError) : Ends s (raiseError e s)
  | fault : Ends s (s.recordFault .uninitOperand)
  | vector (l : Nat) (xs : List F64) (size : 2 ^ l ≤ 256) (length : xs.length = 2 ^ l) : Ends s (finishVector (2 ^ l) xs s)
  | scalar (v : F64) : Ends s (finishScalar v s)

theorem execFwd_ends (sza : Nat) (src : BufSel) (s : State) : ∃ t, execFwd sza src s = .next t ∧ Ends s t := by
  unfold execFwd
  split
  · exact ⟨_, rfl, .error _⟩
  · next h =>
    split
    · exact ⟨_, rfl, .fault⟩
    · exact ⟨_, rfl, .vector _ _ (size_le (by simpa using h)) (fwdVector_length ..)⟩

theorem execInv_ends (sza : Nat) (src : BufSel) (s : State) : ∃ t, execInv sza src s = .next t ∧ Ends s t := by
  unfold execInv
  split
  · exact ⟨_, rfl, .error _⟩
  · next h =>
    split
    · exact ⟨_, rfl, .fault⟩
    · exact ⟨_, rfl, .vector _ _ (size_le (by simpa using h)) (invVector_length ..)⟩

theorem execDown_ends (sza szb : Nat) (src : BufSel) (s : State) :
    ∃ t, execDown sza szb src s = .next t ∧ Ends s t := by
  unfold execDown
  split
  · exact ⟨_, rfl, .error _⟩
  · next h =>
    simp only [Bool.not_eq_true, Bool.or_eq_false_iff, Bool.not_eq_false'] at h
    split
    · exact ⟨_, rfl, .error _⟩
    · split
      · exact ⟨_, rfl, .fault⟩
      · exact ⟨_, rfl, .vector _ _ (size_le h.2) (downVector_length ..)⟩

theorem execUp_ends (sza szb : Nat) (src : BufSel) (s : State) : ∃ t, execUp sza szb src s = .next t ∧ Ends s t := by
  unfold execUp
  split
  · exact ⟨_, rfl, .error _⟩
  · next h =>
    simp only [Bool.not_eq_true, Bool.or_eq_false_iff, Bool.not_eq_false'] at h
    split
    · exact ⟨_, rfl, .error _⟩
    · split
      · exact ⟨_, rfl, .fault⟩
      · exact ⟨_, rfl, .vector _ _ (size_le h.2) (upVector_length ..)⟩

theorem execRdrs_ends (sza szb idx : Nat) (s : State) : ∃ t, execRdrs sza szb idx s = .next t ∧ Ends s t := by
  unfold execRdrs
  split
  · exact ⟨_, rfl, .error _⟩
  · split
    · exact ⟨_, rfl, .error _⟩
    · split
      · exact ⟨_, rfl, .error _⟩
      · exact ⟨_, rfl, .scalar _⟩

theorem execRdbf_ends (sza idx : Nat) (s : State) : ∃ t, execRdbf sza idx s = .next t ∧ Ends s t := by
  unfold execRdbf
  split
  · exact ⟨_, rfl, .error _⟩
  · split
    · exact ⟨_, rfl, .error _⟩
    · exact ⟨_, rfl, .scalar _⟩

/-- Every command's completion takes a next state, in one of the four ways. -/
theorem exec_ends (i : Instr) (s : State) : ∃ t, exec i s = .next t ∧ Ends s t := by
  cases i with
  | fwd sza src => exact execFwd_ends sza src s
  | inv sza src => exact execInv_ends sza src s
  | down sza szb src => exact execDown_ends sza szb src s
  | up sza szb src => exact execUp_ends sza szb src s
  | rdrs sza szb idx => exact execRdrs_ends sza szb idx s
  | rdbf sza idx => exact execRdbf_ends sza idx s

/-- A completion touches none of this, whichever way it ends (R48, R92). -/
theorem Ends.frame {s t : State} (h : Ends s t) :
    t.ie = s.ie ∧ t.cmd = s.cmd ∧ t.snap = s.snap ∧ t.script = s.script ∧ t.responses = s.responses ∧
      t.status.werr = s.status.werr := by
  cases h <;> simp

end Sys2Proof.Machine
end

