-- ==== Sys2Proof/Laws/Flags.lean ====
section
/-! SUPPORT. Where the fields of STATUS stand in the word that it reads as (R22). -/

namespace Sys2Proof.Machine

/-- Bits 3:0 are the four flags. -/
theorem Status.word_flags (t : Status) :
    t.word.getLsbD 0 = t.busy ∧ t.word.getLsbD 1 = t.done ∧ t.word.getLsbD 2 = t.err ∧ t.word.getLsbD 3 = t.werr := by
  refine ⟨?_, ?_, ?_, ?_⟩ <;> simp only [Status.word, BitVec.getLsbD_append] <;> simp [flagBit] <;> split <;> simp_all

/-- Bits 7:4 are ERRCODE. -/
theorem Status.word_errcode (t : Status) : t.word.extractLsb' 4 4 = t.errcode := by
  ext i hi
  simp only [Status.word, BitVec.getElem_extractLsb', BitVec.getLsbD_append]
  have : i = 0 ∨ i = 1 ∨ i = 2 ∨ i = 3 := by omega
  rcases this with rfl | rfl | rfl | rfl <;> simp

/-- Bits 16:8 are OLEN. -/
theorem Status.word_olen (t : Status) : t.word.extractLsb' 8 9 = t.olen := by
  ext i hi
  simp only [Status.word, BitVec.getElem_extractLsb', BitVec.getLsbD_append]
  rw [if_neg (by omega), if_neg (by omega), if_neg (by omega), if_neg (by omega), if_neg (by omega), if_pos (by omega),
    ← BitVec.getLsbD_eq_getElem]
  congr 1
  omega

/-- Bits 31:17 are 0. -/
theorem Status.word_reserved (t : Status) : t.word.extractLsb' 17 15 = 0#15 := by
  ext i hi
  simp only [Status.word, BitVec.getElem_extractLsb', BitVec.getLsbD_append]
  repeat (split; omega)
  simp

end Sys2Proof.Machine
end

