-- ==== Sys2Proof/Laws/Float.lean ====
section
/-! SUPPORT. Small laws of the binary64 operations. -/

namespace Sys2Proof

theorem topBit_eq (k m : Nat) (h : m < 2 ^ 2 ^ k) : topBit k m = m.log2 := by
  induction k generalizing m with
  | zero =>
    have : m = 0 ∨ m = 1 := by simp at h; omega
    rcases this with rfl | rfl <;> decide
  | succ k ih =>
    unfold topBit
    split
    · exact ih m ‹_›
    · next hge =>
      have hpow : (2 : Nat) ^ 2 ^ (k + 1) = 2 ^ 2 ^ k * 2 ^ 2 ^ k := by rw [← pow_add]; congr 1; ring
      have hlt : m / 2 ^ 2 ^ k < 2 ^ 2 ^ k := Nat.div_lt_of_lt_mul (by rwa [← hpow])
      have hlog : 2 ^ k ≤ Nat.log 2 m := Nat.le_log_of_pow_le (by omega) (Nat.not_lt.1 hge)
      rw [ih _ hlt, Nat.log2_eq_log_two, Nat.log2_eq_log_two, Nat.log_div_base_pow]
      omega

/-- The quick logarithm is the logarithm. -/
@[simp] theorem floorLog2_eq (m : Nat) : floorLog2 m = m.log2 := by
  unfold floorLog2
  split
  · exact topBit_eq 13 m ‹_›
  · rfl

theorem F64.frac_lt (x : F64) : x.frac < 2 ^ 52 := Nat.mod_lt _ (by norm_num)

theorem F64.expo_lt (x : F64) : x.expo < 2048 := Nat.mod_lt _ (by norm_num)

/-- An encoding put together from its sign and its low bits, as a number. -/
theorem F64.toNat_ofBits (b : Bool) {low : Nat} (h : low < 2 ^ 63) :
    (F64.ofBits b low).toNat = (if b then 2 ^ 63 else 0) + low := by
  cases b <;> simp [F64.ofBits, BitVec.toNat_ofNat] <;> omega

theorem F64.expo_ofBits (b : Bool) {low : Nat} (h : low < 2 ^ 63) : (F64.ofBits b low).expo = low / 2 ^ 52 := by
  unfold F64.expo
  rw [F64.toNat_ofBits b h]
  cases b
  · simp; omega
  · simp; omega

theorem F64.frac_ofBits (b : Bool) {low : Nat} (h : low < 2 ^ 63) : (F64.ofBits b low).frac = low % 2 ^ 52 := by
  unfold F64.frac
  rw [F64.toNat_ofBits b h]
  cases b
  · simp
  · simp; omega

theorem F64.isNeg_ofBits (b : Bool) {low : Nat} (h : low < 2 ^ 63) : (F64.ofBits b low).isNeg = b := by
  unfold F64.isNeg
  rw [F64.toNat_ofBits b h]
  cases b
  · simp; omega
  · simp

/-- Every drawn encoding is a NaN (R12). -/
theorem isNaN_nanOf (x : F64) : (nanOf x).isNaN = true := by
  have hf := x.frac_lt
  have hl : infLow + max 1 x.frac < 2 ^ 63 := by unfold infLow; omega
  unfold nanOf F64.isNaN
  rw [F64.expo_ofBits _ hl, F64.frac_ofBits _ hl]
  unfold infLow
  simp
  omega

/-- An addition with a NaN operand answers the drawn encoding (R12). -/
theorem fadd_nan {c a b : F64} (h : a.isNaN = true ∨ b.isNaN = true) : fadd c a b = c := by
  rcases h with h | h <;> simp [fadd, h]

/-- A multiplication with a NaN operand answers the drawn encoding (R12). -/
theorem fmul_nan {c a b : F64} (h : a.isNaN = true ∨ b.isNaN = true) : fmul c a b = c := by
  rcases h with h | h <;> simp [fmul, h]

/-- An addition of finite operands is the rounded exact sum (R11). -/
theorem fadd_finite {c a b : F64} (ha : a.isFinite = true) (hb : b.isFinite = true) : fadd c a b = addFinite a b := by
  simp only [F64.isFinite, bne_iff_ne, ne_eq] at ha hb
  simp [fadd, F64.isNaN, F64.isInf, ha, hb]

/-- A multiplication of finite operands is the rounded exact product (R11). -/
theorem fmul_finite {c a b : F64} (ha : a.isFinite = true) (hb : b.isFinite = true) :
    fmul c a b = roundPack (a.isNeg != b.isNeg) (a.magnitude * b.magnitude) 1074 := by
  simp only [F64.isFinite, bne_iff_ne, ne_eq] at ha hb
  simp [fmul, F64.isNaN, F64.isInf, ha, hb]

end Sys2Proof
end

