-- ==== Sys2Proof/Laws/Invariant.lean ====
section
/-! SUPPORT. What the parts of the invariant are kept by: the marks of whole halves by stores and snapshots, and the legal
flags by every computation on them. -/

namespace Sys2Proof.Machine

/-- A store of whole halves keeps the marks those of whole halves (R34). -/
theorem Memory.wholeHalves_store {m : Memory} (h : m.WholeHalves) {b : Nat} {bs : List Byte} (hb : b % 4 = 0)
    (hl : bs.length % 4 = 0) : (m.store b bs).WholeHalves := by
  intro a j ha hj
  rw [Memory.byte_store, Memory.byte_store]
  by_cases hin : b ≤ a ∧ a < b + bs.length
  · rw [if_pos (by omega), if_pos hin, List.getElem?_eq_getElem (by omega), List.getElem?_eq_getElem (by omega)]
    rfl
  · rw [if_neg (by omega), if_neg hin]
    exact h a j ha hj

/-- A snapshot of whole halves has the marks of whole halves (R36). -/
theorem Memory.wholeHalves_slice {m : Memory} (h : m.WholeHalves) {b l : Nat} (hb : b % 4 = 0) (hl : l % 4 = 0) :
    (m.slice b l).WholeHalves := by
  intro a j ha hj
  rw [Memory.byte_slice, Memory.byte_slice]
  by_cases hin : a < l
  · rw [if_pos (by omega), if_pos hin, ← Nat.add_assoc]
    exact h (b + a) j (by omega) hj
  · rw [if_neg (by omega), if_neg hin]

theorem Status.Legal.accept {t : Status} (h : t.Legal) : t.accept.Legal := by
  constructor <;> simp [h.olenBound]

theorem Status.Legal.clearBits {t : Status} (h : t.Legal) (v : Word) : (t.clearBits v).Legal := by
  obtain ⟨h1, h2, h3, h4, h5⟩ := h
  constructor
  · simp
    intro a b c
    simp_all
  · simp
    cases hv : v.getLsbD 2 <;> simp_all
  · simp
    cases hv : v.getLsbD 2 <;> simp_all
  · simp
    intro a
    simp_all
  · simpa using h5

theorem Status.Legal.writeDropped {t : Status} (h : t.Legal) : t.writeDropped.Legal :=
  ⟨h.notBoth, h.codeClear, h.codeSet, h.busyClear, h.olenBound⟩

/-- An error is reported from legal flags while BUSY (R92). -/
theorem Status.Legal.fail {t : Status} (h : t.Legal) (hb : t.busy = true) (e : CmdError) : (t.fail e).Legal := by
  have hd := (h.busyClear hb).1
  constructor
  · simp [hd]
  · simp
  · simp
    cases e <;> decide
  · simp
  · simpa using h.olenBound

/-- A success is reported from legal flags while BUSY (R92). -/
theorem Status.Legal.succeed {t : Status} (h : t.Legal) (hb : t.busy = true) {n : Nat} (hn : n ≤ 256) :
    (t.succeed n).Legal := by
  have he := (h.busyClear hb).2
  constructor
  · simp [he]
  · simpa using h.codeClear
  · simp [he]
  · simp
  · simp
    omega

end Sys2Proof.Machine
end

