-- ==== Sys2Proof/Laws/PerInstr.lean ====
section
/-! SUPPORT. The fields of a word, and a family with one lemma per constructor of `Instr`: the word of a command
satisfies the row of R61's table that the command belongs to. -/

namespace Sys2Proof.Laws

/-- The fields of a word put together from fields are those fields (R56). -/
theorem fieldsOf_word (f : Fields) : fieldsOf f.word = f := by
  obtain ⟨op, sza, szb, idx, src, reserved⟩ := f
  simp only [fieldsOf, Fields.word, Fields.mk.injEq]
  refine ⟨?_, ?_, ?_, ?_, ?_, ?_⟩ <;>
    (apply BitVec.eq_of_getLsbD_eq
     intro i hi
     simp only [BitVec.getLsbD_extractLsb', BitVec.getLsbD_append]
     interval_cases i <;> simp)

/-- A word that is put together from fields, under a mask: the masked bits are the fields' own. -/
theorem word_and (f : Fields) (g : Fields) :
    f.word &&& g.word =
      Fields.word ⟨f.op &&& g.op, f.sza &&& g.sza, f.szb &&& g.szb, f.idx &&& g.idx, f.src &&& g.src,
        f.reserved &&& g.reserved⟩ := by
  apply BitVec.eq_of_getLsbD_eq
  intro i hi
  simp only [Fields.word, BitVec.getLsbD_and, BitVec.getLsbD_append]
  interval_cases i <;> simp

end Sys2Proof.Laws

/-- The word of a command satisfies its own row: `(word AND mask) = match` (R61). -/
def Sys2Proof.Laws.RowMatch.Statement (i : Sys2Proof.Instr) : Prop :=
  Sys2Proof.encode i &&& i.opcode.mask = i.opcode.pattern

namespace Sys2Proof.Laws.RowMatch

/-- A mask of R61's table by its fields: all ones where the field is checked, 0 where it is an operand. -/
def maskFields : Opcode → Fields
  | .fwd => ⟨0xF#4, 0#4, 0xF#4, 0xFF#8, 0#1, 0x7FF#11⟩
  | .inv => ⟨0xF#4, 0#4, 0xF#4, 0xFF#8, 0#1, 0x7FF#11⟩
  | .down => ⟨0xF#4, 0#4, 0#4, 0xFF#8, 0#1, 0x7FF#11⟩
  | .up => ⟨0xF#4, 0#4, 0#4, 0xFF#8, 0#1, 0x7FF#11⟩
  | .rdrs => ⟨0xF#4, 0#4, 0#4, 0#8, 1#1, 0x7FF#11⟩
  | .rdbf => ⟨0xF#4, 0#4, 0xF#4, 0#8, 1#1, 0x7FF#11⟩

theorem mask_eq (o : Opcode) : o.mask = (maskFields o).word := by cases o <;> decide

/-- A word under a row's mask, by its fields. -/
theorem and_mask (o : Opcode) (f : Fields) :
    f.word &&& o.mask =
      Fields.word ⟨f.op &&& (maskFields o).op, f.sza &&& (maskFields o).sza, f.szb &&& (maskFields o).szb,
        f.idx &&& (maskFields o).idx, f.src &&& (maskFields o).src, f.reserved &&& (maskFields o).reserved⟩ := by
  rw [mask_eq]
  exact word_and f _

theorem fwd (sza : Nat) (src : BufSel) : Statement (.fwd sza src) := by
  rw [Statement, encode, and_mask]
  simp only [Instr.fields, Instr.opcode, maskFields, BitVec.and_zero]
  decide

theorem inv (sza : Nat) (src : BufSel) : Statement (.inv sza src) := by
  rw [Statement, encode, and_mask]
  simp only [Instr.fields, Instr.opcode, maskFields, BitVec.and_zero]
  decide

theorem down (sza szb : Nat) (src : BufSel) : Statement (.down sza szb src) := by
  rw [Statement, encode, and_mask]
  simp only [Instr.fields, Instr.opcode, maskFields, BitVec.and_zero]
  decide

theorem up (sza szb : Nat) (src : BufSel) : Statement (.up sza szb src) := by
  rw [Statement, encode, and_mask]
  simp only [Instr.fields, Instr.opcode, maskFields, BitVec.and_zero]
  decide

theorem rdrs (sza szb idx : Nat) : Statement (.rdrs sza szb idx) := by
  rw [Statement, encode, and_mask]
  simp only [Instr.fields, Instr.opcode, maskFields, BitVec.and_zero]
  decide

theorem rdbf (sza idx : Nat) : Statement (.rdbf sza idx) := by
  rw [Statement, encode, and_mask]
  simp only [Instr.fields, Instr.opcode, maskFields, BitVec.and_zero]
  decide

end Sys2Proof.Laws.RowMatch
end

