-- ==== Sys2Proof/Laws/Step.lean ====
section
/-! SUPPORT. Everything that a step can do, said once. -/

namespace Sys2Proof.Machine

/-- A completion step always takes a next state, in one of the four ways (R92). -/
theorem completion_ends (s : State) : ∃ t, completion s = .next t ∧ Ends s t := by
  unfold completion
  split
  · exact exec_ends _ s
  · exact ⟨_, rfl, .error _⟩

/-- What the engine's turn can do (R92). -/
theorem engineTurn_cases (s : State) :
    (s.status.busy = false ∧ engineTurn s = .next s) ∨
      (s.status.busy = true ∧ ∃ t, engineTurn s = .next t ∧ Ends s t) := by
  unfold engineTurn
  cases h : s.status.busy
  · exact .inl ⟨rfl, by simp⟩
  · exact .inr ⟨rfl, by simpa using completion_ends s⟩

/-- What a step that answers a next state did: an idle or completing turn of the engine, a host access in the window,
or a reset (R49). -/
inductive Moved (s : State) : State → Prop where
  | idle (t : State) (empty : s.script = []) (busy : s.status.busy = false) (same : t = s) : Moved s t
  | last (t : State) (empty : s.script = []) (busy : s.status.busy = true) (ends : Ends s t) : Moved s t
  | skip (rest : List Event) (turn : s.script = .engine :: rest) (busy : s.status.busy = false) :
      Moved s (s.setScript rest)
  | complete (rest : List Event) (t : State) (turn : s.script = .engine :: rest) (busy : s.status.busy = true)
      (ends : Ends (s.setScript rest) t) : Moved s t
  | reset (rest : List Event) (turn : s.script = .reset :: rest) : Moved s (platformReset (s.setScript rest))
  | read (master a w : Nat) (rest : List Event) (t : State) (turn : s.script = .read master a w :: rest)
      (place : a < Config.windowSize) (ends : ReadEnds (s.setScript rest) master t) : Moved s t
  | refusedWrite (master a w : Nat) (v : F64) (rest : List Event) (turn : s.script = .write master a w v :: rest)
      (place : a < Config.windowSize) (refused : admitted a w = false) : Moved s (refuseAccess master (s.setScript rest))
  | write (master a w : Nat) (v : F64) (rest : List Event) (t : State) (turn : s.script = .write master a w v :: rest)
      (place : a < Config.windowSize) (taken : admitted a w = true) (ends : WriteEnds a w v (s.setScript rest) t) :
      Moved s (t.respond master .written)

theorem step_moved {s t : State} (h : step s = .next t) : Moved s t := by
  unfold step nextTurn at h
  split at h
  case h_1 he =>
    rcases engineTurn_cases s with ⟨hb, h'⟩ | ⟨hb, u, h', hu⟩
    · rw [h'] at h; cases h; exact .idle _ he hb rfl
    · rw [h'] at h; cases h; exact .last _ he hb hu
  case h_2 e rest he =>
    cases e with
    | read master a w =>
      simp only [runEvent, hostAccess] at h
      split at h
      · cases h
      · cases h; exact .read master a w rest _ he (by omega) (hostRead_ends ..)
    | write master a w v =>
      simp only [runEvent, hostAccess] at h
      split at h
      · cases h
      · cases h
        unfold hostWrite
        split
        · next ha => exact .refusedWrite master a w v rest he (by omega) (by simpa using ha)
        · next ha => exact .write master a w v rest _ he (by omega) (by simpa using ha) (writeTarget_ends ..)
    | reset => cases h; exact .reset rest he
    | engine =>
      rcases engineTurn_cases (s.setScript rest) with ⟨hb, h'⟩ | ⟨hb, u, h', hu⟩
      · rw [runEvent, h'] at h; cases h; exact .skip rest he hb
      · rw [runEvent, h'] at h; cases h; exact .complete rest _ he hb hu

end Sys2Proof.Machine
end

