-- ==== Sys2Proof/Tests/Slice0.lean ====
section
/-! SUPPORT. Tests on fixed values, their results taken from `spec/` (the source stands before each group), and for
every statement with hypotheses a witness that meets them. -/

namespace Sys2Proof.Tests

open Sys2Proof.Machine Sys2Proof.Claims

/-! ### Well-formedness: a term that each check refuses (R56, R58, R60) -/

theorem test_wellFormed_refuses_wide_sizes :
    (Instr.fwd 16 .ibuf).wellFormed = false ∧ (Instr.inv 16 .obuf).wellFormed = false ∧
    (Instr.down 16 0 .ibuf).wellFormed = false ∧ (Instr.down 0 16 .ibuf).wellFormed = false ∧
    (Instr.up 16 0 .ibuf).wellFormed = false ∧ (Instr.up 0 16 .ibuf).wellFormed = false ∧
    (Instr.rdrs 16 0 0).wellFormed = false ∧ (Instr.rdrs 0 16 0).wellFormed = false ∧
    (Instr.rdbf 16 0).wellFormed = false := by decide

theorem test_wellFormed_refuses_wide_indexes :
    (Instr.rdrs 0 0 256).wellFormed = false ∧ (Instr.rdbf 2 256).wellFormed = false := by decide

theorem test_wellFormed_admits_the_largest_fields :
    (Instr.fwd 15 .obuf).wellFormed = true ∧ (Instr.inv 15 .ibuf).wellFormed = true ∧
    (Instr.down 15 15 .obuf).wellFormed = true ∧ (Instr.up 15 15 .obuf).wellFormed = true ∧
    (Instr.rdrs 15 15 255).wellFormed = true ∧ (Instr.rdbf 15 255).wellFormed = true := by decide

/-! ### Decoding: words written out from R56's fields: reserved, SRC, IDX, SZB, SZA, OP -/

theorem test_decode_fwd :
    decode (0b00000000000#11 ++ 1#1 ++ 0b00000000#8 ++ 0b0000#4 ++ 0b0110#4 ++ 0b0001#4) = .ok (.fwd 6 .obuf) := by decide

theorem test_decode_inv :
    decode (0b00000000000#11 ++ 0#1 ++ 0b00000000#8 ++ 0b0000#4 ++ 0b0011#4 ++ 0b0010#4) = .ok (.inv 3 .ibuf) := by decide

theorem test_decode_down :
    decode (0b00000000000#11 ++ 1#1 ++ 0b00000000#8 ++ 0b0011#4 ++ 0b0110#4 ++ 0b0011#4) = .ok (.down 6 3 .obuf) := by
  decide

theorem test_decode_up :
    decode (0b00000000000#11 ++ 0#1 ++ 0b00000000#8 ++ 0b0110#4 ++ 0b0011#4 ++ 0b0100#4) = .ok (.up 3 6 .ibuf) := by decide

theorem test_decode_rdrs :
    decode (0b00000000000#11 ++ 0#1 ++ 0b11001000#8 ++ 0b0010#4 ++ 0b0100#4 ++ 0b0101#4) = .ok (.rdrs 4 2 200) := by decide

theorem test_decode_rdbf :
    decode (0b00000000000#11 ++ 0#1 ++ 0b01111111#8 ++ 0b0000#4 ++ 0b1000#4 ++ 0b0110#4) = .ok (.rdbf 8 127) := by decide

/-- The illegal words of L2.2, L2.5 and of R57, each rejected by its name; a size field of 9 to 15 is legal (R58). -/
theorem test_decode_rejects_by_name :
    decode 0x00100365#32 = .error .unusedField ∧ decode 0x00000126#32 = .error .unusedField ∧
    decode 0x00001363#32 = .error .unusedField ∧ decode 0x00000000#32 = .error .reservedOp ∧
    decode 0x00000007#32 = .error .reservedOp ∧ decode 0x80000001#32 = .error .reservedBits ∧
    decode 0x00000091#32 = .ok (.fwd 9 .ibuf) := by decide

/-- R39: the least significant byte stands at the lowest address. -/
theorem test_decode_bytes :
    decodeBytes [0x65#8, 0x33#8, 0x00#8, 0x00#8] = .ok (.rdrs 6 3 3) ∧
    decodeBytes [0x65#8, 0x33#8, 0x00#8] = .error .notOneWord ∧ decodeTableWord 32 0x3365 = some (.rdrs 6 3 3) := by
  decide

/-! ### One completion step each -/

/-- The machine with the words `xs` at the start of IBUF and the command word `w` accepted, the engine's turn next. -/
def ready (w : Nat) (xs : List F64) : State :=
  (State.reset.setMem (Memory.store [] 0x1000 (xs.flatMap wordBytes))).withFetchWord 32 w

/-- The next step answers a next state, and `p` holds of it. -/
def next (s : State) (p : State → Bool) : Bool :=
  match step s with
  | .next t => p t
  | .fault _ => false
  | .refused _ => false

/-- STATUS and the first words of OBUF. -/
def result (st : Word) (xs : List F64) (t : State) : Bool :=
  t.status.word == st && (List.range xs.length).map (fun k => t.mem.word (0x2000 + 8 * k)) == xs.map some

/-- STATUS and the RESULT pair. -/
def scalar (st hi lo : Word) (t : State) : Bool := t.status.word == st && t.resultHi == hi && t.resultLo == lo

/-- L2.3: FWD 4 of 1, 2, 3, 4. -/
theorem test_fwd_4 :
    next (ready 0x21 [0x3FF0000000000000#64, 0x4000000000000000#64, 0x4008000000000000#64, 0x4010000000000000#64])
      (result 0x402#32 [0x4004000000000000#64, 0xBFF93C0D303BBF22#64, 0#64, 0xBFBCB1A0AB4DC341#64]) = true := by
  decide +kernel

/-- L2.3: FWD 2 of the smallest subnormal and 0: 2^-1075 rounds to even. -/
theorem test_fwd_2_subnormal : next (ready 0x11 [1#64, 0#64]) (result 0x202#32 [0#64, 1#64]) = true := by decide +kernel

/-- L2.4: INV 4 of 0, 0, 0, 1. -/
theorem test_inv_4 :
    next (ready 0x22 [0#64, 0#64, 0#64, 0x3FF0000000000000#64])
      (result 0x402#32 [0x3FD87DE2A6AEA963#64, 0xBFED906BCF328D44#64, 0x3FED906BCF328D44#64, 0xBFD87DE2A6AEA963#64])
      = true := by decide +kernel

/-- L2.4: INV 1 of a NaN with a payload moves it bit for bit. -/
theorem test_inv_1_moves_a_nan :
    next (ready 0x02 [0x7FF8000000000123#64]) (result 0x102#32 [0x7FF8000000000123#64]) = true := by decide +kernel

/-- L2.5: DOWN 64, 8 of ones reads eight words only. -/
theorem test_down_64_8 :
    next (ready 0x363 (List.replicate 8 one))
      (result 0x802#32 [one, 0x3FEFCC47DE365031#64, 0x3FEF3245D8C2B294#64, 0x3FEE35656F28B14A#64, 0x3FECDB4095CB49FC#64,
        0x3FEB2B7AA0F61BDF#64, 0x3FE92F8DCBB4C70A#64, 0x3FE6F28CBED07A63#64]) = true := by decide +kernel

/-- L2.5: DOWN 256, 4 of ones is a chain of two stages. -/
theorem test_down_256_4 :
    next (ready 0x283 (List.replicate 4 one))
      (result 0x402#32 [one, 0x3FEF2F1DB6B99E32#64, 0x3FECCF938DFD3F77#64, 0x3FE918A361547293#64]) = true := by
  decide +kernel

/-- L2.6: UP 2, 16 of ones. -/
theorem test_up_2_16 :
    next (ready 0x414 [one, one]) (result 0x1002#32 (one :: 0x3FF1BE35182FE5AA#64 :: List.replicate 14 0#64)) = true := by
  decide +kernel

/-- L2.6: UP 4, 256 of 1, -2, 0.5, -0 (its first eight words). -/
theorem test_up_4_256 :
    next (ready 0x824 [one, 0xC000000000000000#64, 0x3FE0000000000000#64, 0x8000000000000000#64])
      (result 0x10002#32 [one, 0xC0006B2CBD533087#64, 0x3FE1C565DF460E23#64, 0x8000000000000000#64,
        0#64, 0#64, 0#64, 0#64]) = true := by decide +kernel

/-- L2.1: RDRS 64, 8, 3. -/
theorem test_rdrs_64_8_3 : next (ready 0x3365 []) (scalar 0x2#32 0x3FEE3565#32 0x6F28B14A#32) = true := by decide +kernel

/-- L2.2: RDRS 16, 4, 200: the ratio is checked before the index. -/
theorem test_rdrs_ratio_before_index : next (ready 0xC8245 []) (scalar 0x34#32 0#32 0#32) = true := by decide +kernel

/-- L2.1: RDBF 256, 127. -/
theorem test_rdbf_256_127 : next (ready 0x7F086 []) (scalar 0x2#32 0x40545F38#32 0xCE754DD3#32) = true := by
  decide +kernel

/-- L2.2: RDBF 512, 0 is an index error and no size error. -/
theorem test_rdbf_512_is_an_index_error : next (ready 0x96 []) (scalar 0x24#32 0#32 0#32) = true := by decide +kernel

/-- L2.2: an illegal word raises IllegalCommand. -/
theorem test_illegal_word : next (ready 0x126 []) (scalar 0x54#32 0#32 0#32) = true := by decide +kernel

/-- R90, R92: FWD 2 with one operand word missing records UninitOperand, and BUSY stays 1. -/
theorem test_missing_operand :
    next (ready 0x11 [one]) (fun t => t.faults.uninitOperand && t.status.busy && t.script == []) = true := by decide +kernel

/-! ### Witnesses: states and operands that meet the hypotheses of the statements -/

/-- A machine with a pending command and these snapshot words, and these turns to come. -/
def pending (w : Word) (xs : List F64) (es : List Event) : State :=
  { State.reset with
    status := { Status.reset with busy := true }
    cmd := w
    snap := Memory.store [] 0 (xs.flatMap wordBytes)
    script := es }

/-- A machine with all of IBUF and OBUF holding ones, and these turns to come. -/
def filled (es : List Event) : State :=
  { State.reset with
    mem := cellsAt 0x1000 ((List.replicate 256 one).flatMap wordBytes) ++
      cellsAt 0x2000 ((List.replicate 256 one).flatMap wordBytes)
    script := es }

/-- The hypotheses and one word of the conclusion, at both ends of a statement's range. -/
theorem witness_DecodeGivesBackEveryEncodedCommand : (Instr.rdrs 15 15 255).wellFormed = true := by decide

theorem witness_EncodeGivesBackEveryDecodedWord :
    decode 0x000FFFF5#32 = .ok (.rdrs 15 15 255) ∧ decode 0x001000F1#32 = .ok (.fwd 15 .obuf) := by decide

theorem witness_WellFormedWordsAreThoseOfOneRow :
    wellFormedWord 0x00100365#32 = false ∧ wellFormedWord 0x00003365#32 = true ∧
    Opcode.accepts .rdrs 0x00003365#32 = true ∧
    (State.reset.setScript [w32 0 0x00C 0x00100365#32]).status.busy = false ∧
    (pending 0x00100365#32 [] []).status.busy = true ∧ (pending 0x00100365#32 [] []).cmd = 0x00100365#32 := by decide

theorem witness_StepRunsTheDecodedCommand :
    (pending 0x11#32 [one, one] []).status.busy = true ∧ decode (pending 0x11#32 [one, one] []).cmd = .ok (.fwd 1 .ibuf) ∧
    (pending 0x11#32 [one, one] []).script = [] ∧ (pending 0x11#32 [] [.engine, .reset]).script = .engine :: [.reset] := by
  decide

theorem witness_PlacedWordIsTheNextCommand : decodeTableWord 32 0x3F076 = some (.rdbf 7 63) := by decide

theorem witness_FirstFailingCheckIsReported :
    (pending 0x126#32 [] []).status.busy = true ∧
    wordCode 0x126#32 = some 5#4 ∧ wordCode 0x695#32 = some 1#4 ∧ wordCode 0x8365#32 = some 2#4 ∧
    wordCode 0xC8245#32 = some 3#4 ∧ wordCode 0x453#32 = some 4#4 ∧ wordCode 0x593#32 = some 1#4 ∧
    wordCode 0x363#32 = none := by decide

/-- A failing check, and an illegal word. -/
theorem witness_RaisingCommandWritesOnlyStatus :
    (pending 0x91#32 [] []).status.busy = true ∧ (pending 0x91#32 [] []).status.err = false ∧
    (∃ t, engineTurn (pending 0x91#32 [] []) = .next t ∧ t.status.err = true) ∧
    ∃ t, engineTurn (pending 0x126#32 [] []) = .next t ∧ t.status.err = true := ⟨rfl, rfl, ⟨_, rfl, rfl⟩, _, rfl, rfl⟩

/-- A command of which all `n` operand words are ones. -/
theorem operands_ones (w : Word) (n : Nat) : Operands (pending w (List.replicate n one) []) n (fun _ => one) := by
  intro k hk
  have h := Memory.word_store_vector [] 0 (List.replicate n one) (k := k) (by simpa using hk)
  simpa [pending] using h

/-- Both ends of the sizes, for each of the four vector commands. -/
theorem witness_FwdCompletes :
    Operands (pending 0x01#32 (List.replicate 1 one) []) (2 ^ 0) (fun _ => one) ∧
    Operands (pending 0x81#32 (List.replicate 256 one) []) (2 ^ 8) (fun _ => one) := ⟨operands_ones _ 1, operands_ones _ 256⟩

theorem witness_InvCompletes :
    Operands (pending 0x02#32 (List.replicate 1 one) []) (2 ^ 0) (fun _ => one) ∧
    Operands (pending 0x82#32 (List.replicate 256 one) []) (2 ^ 8) (fun _ => one) := ⟨operands_ones _ 1, operands_ones _ 256⟩

theorem witness_DownCompletes :
    Operands (pending 0x583#32 (List.replicate 32 one) []) (2 ^ 5) (fun _ => one) ∧ 8 = 5 + 3 ∧
    Operands (pending 0x063#32 (List.replicate 1 one) []) (2 ^ 0) (fun _ => one) ∧ 6 = 0 + 6 :=
  ⟨operands_ones _ 32, rfl, operands_ones _ 1, rfl⟩

theorem witness_UpCompletes :
    Operands (pending 0x854#32 (List.replicate 32 one) []) (2 ^ 5) (fun _ => one) ∧ 8 = 5 + 3 ∧
    Operands (pending 0x604#32 (List.replicate 1 one) []) (2 ^ 0) (fun _ => one) ∧ 6 = 0 + 6 :=
  ⟨operands_ones _ 32, rfl, operands_ones _ 1, rfl⟩

theorem witness_RdrsCompletes : 8 ≤ 8 ∧ 5 ≤ 8 ∧ (8 = 5 + 3 ∨ 5 = 8 + 3) ∧ 31 < 2 ^ min 8 5 := by decide

theorem witness_RdbfCompletes : 2 ≤ 2 ∧ 1 < 2 ^ (2 - 1) ∧ 8 ≤ 8 ∧ 127 < 2 ^ (8 - 1) := by decide

theorem witness_UninitialisedOperandWritesNothing :
    checkCode (.down 8 5 .ibuf) = none ∧
    ∃ k < operandCount (.down 8 5 .ibuf), (pending 0x583#32 (List.replicate 31 one) []).snap.word (8 * k) = none :=
  ⟨by decide, 31, by decide, by decide +kernel⟩

theorem witness_InverseOfDcIsConstant :
    F64.isNaN 0x7FF0000000000000#64 = false ∧ F64.isZero 0x7FF0000000000000#64 = false ∧
    F64.isNaN 1#64 = false ∧ F64.isZero 1#64 = false := by decide

theorem witness_OneWordTransformsKeepTheWord :
    F64.isNaN 0x8000000000000000#64 = false ∧ F64.isNaN 0x7FF0000000000000#64 = false := by decide

/-- The sizes at both ends, for FWD of zeros, and for the two chains. -/
theorem witness_ForwardOfZerosIsZeros : 0 ≤ 8 ∧ 8 ≤ 8 := by decide

theorem witness_ForwardOfNegativeZeros : 0 ≤ 8 ∧ 8 ≤ 8 := by decide

theorem witness_UpIsAChainOfStages : 5 + 3 ≤ 8 ∧ 2 + 6 ≤ 8 := by decide

theorem witness_DownIsAChainOfStages : 5 + 3 ≤ 8 ∧ 2 + 6 ≤ 8 := by decide

theorem witness_DcPassesResamplingUnchanged :
    resampleStages 8 5 = some 1 ∧ resampleStages 8 2 = some 2 ∧ resampleStages 6 0 = some 2 ∧
    (elem [0x7FF0000000000000#64] 0).isNaN = false := by decide

theorem witness_ResamplingKeepsZerosAndInfinities :
    resampleStages 8 5 = some 1 ∧ 31 < 2 ^ 5 ∧ (elem (List.replicate 32 0x8000000000000000#64) 31).isZero = true ∧
    (elem (List.replicate 32 0xFFF0000000000000#64) 31).isInf = true := by decide

/-- A tie between the two smallest values, and both sides of the bound at which rounding gives an infinity. -/
theorem witness_RoundingIsNearestTiesToEven :
    (roundPack false 1 1).isFinite = true ∧ distance 1 0 1 = distance 1 1 1 ∧ F64.magnitude 1#64 = 1 ∧
    (roundPack true ((2 ^ 54 - 1) * 2 ^ 2044 - 1) 0).isFinite = true ∧
    (roundPack true ((2 ^ 54 - 1) * 2 ^ 2044) 0).isFinite = false := by decide +kernel

theorem witness_AdditionIsExactWhereItCanBe :
    F64.isFinite one = true ∧ F64.isFinite 0x4000000000000000#64 = true ∧
    F64.value 0x4000000000000000#64 = F64.value one + F64.value one ∧ F64.value 0x4000000000000000#64 ≠ 0 ∧
    F64.value one + F64.value 0xBFF0000000000000#64 = 0 ∧ F64.value 0x8000000000000000#64 = 0 := by decide +kernel

theorem witness_AdditionAndMultiplicationCommute : F64.isFinite one = true ∧ F64.isFinite 1#64 = true := by decide

theorem witness_MultiplyingByOneKeepsTheValue :
    F64.isNaN 1#64 = false ∧ F64.isNaN 0x8000000000000000#64 = false ∧ F64.isNaN 0xFFF0000000000000#64 = false := by decide

theorem witness_NaNResultsAreTheDrawnEncodings :
    F64.isNaN 0x7FF0000000000001#64 = true ∧ F64.isNaN 0xFFFFFFFFFFFFFFFF#64 = true ∧
    (fadd 0x7FF8000000000000#64 0x7FF0000000000000#64 0xFFF0000000000000#64).isNaN = true ∧
    (fsub 0x7FF8000000000000#64 0x7FF0000000000000#64 0x7FF0000000000000#64).isNaN = true ∧
    (fmul 0x7FF8000000000000#64 0x7FF0000000000000#64 0#64).isNaN = true := by decide

theorem witness_AcceptanceTakesTheSnapshot :
    (filled [w32 1 0x00C 0x00100021#32]).status.busy = false ∧
    (filled [w32 1 0x00C 0x00100021#32]).script = .write 1 0x00C 4 0x00100021#64 :: [] := ⟨rfl, rfl⟩

/-- A target of each clause, at the ends of the buffer, and the admitted widths there. -/
theorem witness_HostWritesActByTarget :
    InIbuf 0x1000 ∧ Admits 0x1000 8 ∧ InIbuf 0x17F8 ∧ Admits 0x17F8 8 ∧ InIbuf 0x17FC ∧ Admits 0x17FC 4 ∧
    Admits 0x004 4 ∧ Admits 0x008 4 ∧ Admits 0x00C 4 ∧ Admits 0x000 4 ∧ Admits 0x2000 8 ∧ ¬ InIbuf 0x2000 ∧
    ¬ InIbuf 0x1800 ∧ Admits 0x1800 4 ∧ Admits 0x3FFC 4 ∧ (pending 0#32 [] []).status.busy = true ∧
    (filled []).status.busy = false := by
  simp [InIbuf, Admits, InObuf, show (pending 0#32 [] []).status.busy = true from rfl,
    show (filled []).status.busy = false from rfl]

theorem witness_RefusedAccessChangesNothing :
    ¬ Admits 0x000 8 ∧ ¬ Admits 0x1004 8 ∧ ¬ Admits 0x1001 4 ∧ ¬ Admits 0x1800 8 ∧ ¬ Admits 0x3FFF 4 ∧
    ¬ Admits 0x1000 2 := by
  simp only [InIbuf, Admits, InObuf]; decide

theorem witness_AdmittedAccessIsAnswered :
    Admits 0x000 4 ∧ Admits 0x3FFC 4 ∧ Admits 0x27F8 8 ∧ (filled [r32 2 0x3FFC]).script = .read 2 0x3FFC 4 :: [] := by
  simp only [InIbuf, Admits, InObuf]; exact ⟨by decide, by decide, by decide, rfl⟩

theorem witness_AccessOutsideTheWindowStops : (filled [r32 0 0x4000]).script = .read 0 0x4000 4 :: [] := rfl

/-- The offsets of RESULT_LO and of the ends of the reserved ranges meet the hypotheses; so does RESULT_HI. -/
theorem witness_RegisterReadsReturnTheirFields :
    (∀ a ∈ [0x000, 0x004, 0x008, 0x00C, 0x010, 0x014, 0x018, 0x01C, 0xFFC, 0x1800, 0x1FFC, 0x2800, 0x3FFC],
      a < 0x4000 ∧ a % 4 = 0 ∧ ¬ InIbuf a ∧ ¬ InObuf a) ∧ (filled [r32 0 0x014]).status.busy = false := by
  simp only [InIbuf, InObuf]; decide

/-- A word with both halves marked and one with the high half clear. -/
theorem witness_BufferReadsReturnTheMarkedBytes :
    Admits 0x27F8 8 ∧ InObuf 0x27F8 ∧ (∀ j < 8, ((filled []).mem.byte (0x27F8 + j)).isSome = true) ∧
    Admits 0x1000 8 ∧ InIbuf 0x1000 ∧ (∃ j < 8, (Memory.store [] 0x1000 (halfBytes 1#32)).byte (0x1000 + j) = none) := by
  refine ⟨?_, ?_, by decide +kernel, ?_, ?_, 4, by decide +kernel⟩ <;> simp [InIbuf, InObuf, Admits]

theorem witness_BusyReadsAreFreshDraws :
    Admits 0x2000 8 ∧ InObuf 0x2000 ∧ Admits 0x27FC 4 ∧ InObuf 0x27FC ∧ Admits 0x010 4 ∧ Admits 0x014 4 ∧
    (pending 0#32 [] [r64 0 0x2000]).status.busy = true ∧
    (pending 0#32 [] [r64 0 0x2000]).script = .read 0 0x2000 8 :: [] := by
  simp only [InObuf, InIbuf, Admits]; decide

theorem witness_ReadsHaveNoSideEffect :
    ∃ t, step (State.reset.setScript [r32 3 0x008, r32 3 0x008]) = .next t ∧ t.script = .read 3 0x008 4 :: [] :=
  ⟨_, rfl, rfl⟩

theorem witness_IrqIsALevelOfTheFlags :
    (0x6#64).getLsbD 1 = true ∧ (0x6#64).getLsbD 2 = true ∧ (0x0#64).getLsbD 0 = false ∧
    (State.reset.setScript [ackFlags 0]).script = .write 0 0x008 4 0x6#64 :: [] ∧
    (State.reset.setScript [w32 0 0x004 0#32]).script = .write 0 0x004 4 0#64 :: [] := by decide

theorem witness_ResetGivesEveryItemItsValue :
    (pending 0x21#32 [one] [.reset]).script = .reset :: [] ∧ (pending 0x21#32 [one] [.reset]).status.busy = true := ⟨rfl, rfl⟩

theorem witness_EveryStepKeepsTheInvariant :
    State.reset.Inv ∧ ∃ t, step (State.reset.setScript [w32 0 0x1000 1#32]) = .next t ∧ t.mem.length = 4 := by
  refine ⟨⟨⟨?_, ?_, ?_, ?_, ?_⟩, ?_, ?_, ?_, ?_, ?_, ?_⟩, _, rfl, rfl⟩ <;>
    simp [State.reset, Status.reset, Memory.wf, Memory.InBuffers, Memory.WholeHalves, Memory.InSnapshot, Memory.byte]

/-- Each of the three model faults is recorded somewhere. -/
theorem witness_ModelFaultsAreRecordedExactly :
    (∃ t, step (State.reset.setScript [r64 0 0x000]) = .next t ∧ t.faults.busError = true) ∧
    (∃ t, step (State.reset.setScript [r64 0 0x1000]) = .next t ∧ t.faults.uninitRead = true) ∧
    (∃ t, step (pending 0x11#32 [one] []) = .next t ∧ t.faults.uninitOperand = true) :=
  ⟨⟨_, rfl, rfl⟩, ⟨_, rfl, rfl⟩, ⟨_, rfl, rfl⟩⟩

/-- Each of the three ways in which BUSY falls. -/
theorem witness_OnlyCompletionOrResetClearsBusy :
    (∃ t, step (pending 0#32 [] []) = .next t ∧ t.status.busy = false) ∧
    (∃ t, step (pending 0#32 [] [.engine]) = .next t ∧ t.status.busy = false) ∧
    (∃ t, step (pending 0#32 [] [.reset]) = .next t ∧ t.status.busy = false) :=
  ⟨⟨_, rfl, rfl⟩, ⟨_, rfl, rfl⟩, ⟨_, rfl, rfl⟩⟩

/-- WERR set by a CMD write while BUSY, and then cleared; both ends of IBUF are admitted targets. -/
theorem witness_WerrIsSticky :
    (∃ t u, step (pending 0#32 [] [w32 0 0x00C 1#32, w32 0 0x008 8#32]) = .next t ∧ t.status.werr = true ∧
      step t = .next u ∧ u.status.werr = false) ∧
    Admits 0x00C 4 ∧ Admits 0x1000 8 ∧ InIbuf 0x1000 ∧ Admits 0x17FC 4 ∧ InIbuf 0x17FC := by
  refine ⟨⟨_, _, rfl, rfl, rfl, rfl⟩, ?_⟩
  simp [Admits, InIbuf, InObuf]

theorem witness_HostAccessesLeaveThePendingCommand :
    InWindow (w64 0 0x1000 one) ∧ (∃ t, step (pending 0x21#32 [] [w64 0 0x1000 one]) = .next t) :=
  ⟨by simp [InWindow, w64], _, rfl⟩

/-- One pending command, with and without WERR and a RESULT. -/
theorem witness_ResultsDependOnlyOnCommandAndSnapshot :
    ∃ t u, step (pending 0x26#32 [] []) = .next t ∧
      step (((pending 0x26#32 [] []).setResult one).setStatus { Status.reset with busy := true, werr := true }) = .next u ∧
      wordCode 0x26#32 = none ∧ t.status.busy = false ∧ t.status.olen = 0#9 := ⟨_, _, rfl, rfl, by decide, rfl, rfl⟩

theorem witness_PendingCommandIsCompleted :
    (pending 0x11#32 [one, one] [r32 0 0x008, w32 1 0x004 1#32]).status.busy = true ∧
    ∀ e ∈ (pending 0x11#32 [one, one] [r32 0 0x008, w32 1 0x004 1#32]).script, InWindow e := by
  simp [pending, InWindow, r32, w32]

theorem witness_IdleMachineStaysAsItIs :
    (filled [.engine]).status.busy = false ∧ (filled [.engine]).script = .engine :: [] ∧
    (filled [.engine]).runEnded = true ∧ State.reset.script = [] := ⟨rfl, rfl, rfl, rfl⟩

theorem witness_MastersAreIndistinguishable :
    ∃ t u, step (State.reset.setScript [w32 0 0x004 1#32]) = .next t ∧
      step (State.reset.setScript [w32 1 0x004 1#32]) = .next u ∧ t.ie = true ∧ u.ie = true := ⟨_, _, rfl, rfl, rfl, rfl⟩

end Sys2Proof.Tests
end

section
/-! PROOFS. Which check of a command fails and how its completion then ends (R15, R89, R92). -/

namespace Sys2Proof.Claims

open Sys2Proof.Machine

/-- How a completion ends, by the code of the first failing check: the error of that code, or, where no check fails,
one of the ways that report no error. -/
inductive EndsBy (s : State) : Option (BitVec 4) → State → Prop where
  | error (e : CmdError) : EndsBy s (some e.code) (raiseError e s)
  | fault : EndsBy s none (s.recordFault .uninitOperand)
  | vector (n : Nat) (xs : List F64) : EndsBy s none (finishVector n xs s)
  | scalar (v : F64) : EndsBy s none (finishScalar v s)

/-- A size field is rejected from 9 on (R58). -/
theorem not_sizeSupported_iff {l : Nat} : (!sizeSupported l) = true ↔ 8 < l := by
  simp [sizeSupported]

/-- Two sizes of another ratio than 8 are rejected (R67). -/
theorem not_ratioIsEight_iff {a b : Nat} : (!ratioIsEight a b) = true ↔ ¬(a = b + 3 ∨ b = a + 3) := by
  rw [← ratioIsEight_iff, Bool.not_eq_true', Bool.not_eq_true]

theorem execFwd_endsBy (a : Nat) (src : BufSel) (s : State) :
    ∃ t, execFwd a src s = .next t ∧ EndsBy s (checkCode (.fwd a src)) t := by
  simp only [execFwd, checkCode, not_sizeSupported_iff]
  split
  · exact ⟨_, rfl, .error .unsupportedSize⟩
  · split
    · exact ⟨_, rfl, .fault⟩
    · exact ⟨_, rfl, .vector _ _⟩

theorem execInv_endsBy (a : Nat) (src : BufSel) (s : State) :
    ∃ t, execInv a src s = .next t ∧ EndsBy s (checkCode (.inv a src)) t := by
  simp only [execInv, checkCode, not_sizeSupported_iff]
  split
  · exact ⟨_, rfl, .error .unsupportedSize⟩
  · split
    · exact ⟨_, rfl, .fault⟩
    · exact ⟨_, rfl, .vector _ _⟩

theorem execDown_endsBy (a b : Nat) (src : BufSel) (s : State) :
    ∃ t, execDown a b src s = .next t ∧ EndsBy s (checkCode (.down a b src)) t := by
  simp only [execDown, checkCode, Bool.or_eq_true, not_sizeSupported_iff]
  split
  · exact ⟨_, rfl, .error .unsupportedSize⟩
  · split
    · next hr =>
      rw [resampleStages_eq_none] at hr
      rw [if_neg (by omega)]
      exact ⟨_, rfl, .error .unsupportedResampleRatio⟩
    · next hr =>
      rw [resampleStages_eq_some] at hr
      rw [if_pos (by omega)]
      split
      · exact ⟨_, rfl, .fault⟩
      · exact ⟨_, rfl, .vector _ _⟩

theorem execUp_endsBy (a b : Nat) (src : BufSel) (s : State) :
    ∃ t, execUp a b src s = .next t ∧ EndsBy s (checkCode (.up a b src)) t := by
  simp only [execUp, checkCode, Bool.or_eq_true, not_sizeSupported_iff]
  split
  · exact ⟨_, rfl, .error .unsupportedSize⟩
  · split
    · next hr =>
      rw [resampleStages_eq_none] at hr
      rw [if_neg (by omega)]
      exact ⟨_, rfl, .error .unsupportedResampleRatio⟩
    · next hr =>
      rw [resampleStages_eq_some] at hr
      rw [if_pos (by omega)]
      split
      · exact ⟨_, rfl, .fault⟩
      · exact ⟨_, rfl, .vector _ _⟩

theorem execRdrs_endsBy (a b i : Nat) (s : State) :
    ∃ t, execRdrs a b i s = .next t ∧ EndsBy s (checkCode (.rdrs a b i)) t := by
  simp only [execRdrs, checkCode, Bool.or_eq_true, not_sizeSupported_iff, not_ratioIsEight_iff]
  split
  · exact ⟨_, rfl, .error .unsupportedSize⟩
  · split
    · exact ⟨_, rfl, .error .unsupportedRatio⟩
    · split
      · exact ⟨_, rfl, .error .indexOutOfRange⟩
      · exact ⟨_, rfl, .scalar _⟩

theorem execRdbf_endsBy (a i : Nat) (s : State) :
    ∃ t, execRdbf a i s = .next t ∧ EndsBy s (checkCode (.rdbf a i)) t := by
  simp only [execRdbf, checkCode, Bool.or_eq_true, decide_eq_true_eq, not_sizeSupported_iff]
  split
  · exact ⟨_, rfl, .error .indexOutOfRange⟩
  · split
    · exact ⟨_, rfl, .error .indexOutOfRange⟩
    · exact ⟨_, rfl, .scalar _⟩

/-- Every command ends by its own checks (R89). -/
theorem exec_endsBy (i : Instr) (s : State) : ∃ t, exec i s = .next t ∧ EndsBy s (checkCode i) t := by
  cases i with
  | fwd a src => exact execFwd_endsBy a src s
  | inv a src => exact execInv_endsBy a src s
  | down a b src => exact execDown_endsBy a b src s
  | up a b src => exact execUp_endsBy a b src s
  | rdrs a b i => exact execRdrs_endsBy a b i s
  | rdbf a i => exact execRdbf_endsBy a i s

/-- The completion of any word, legal or not, ends by the word's checks (R61, R89). -/
theorem completion_endsBy (s : State) : ∃ t, completion s = .next t ∧ EndsBy s (wordCode s.cmd) t := by
  cases hword : decode s.cmd with
  | ok i =>
    simp only [completion, wordCode, hword]
    exact exec_endsBy i s
  | error r =>
    simp only [completion, wordCode, hword]
    exact ⟨_, rfl, .error .illegalCommand⟩

/-- While BUSY the engine's turn is that completion (R92). -/
theorem engineTurn_endsBy {s : State} (busy : s.status.busy = true) :
    ∃ t, engineTurn s = .next t ∧ EndsBy s (wordCode s.cmd) t := by
  simpa [engineTurn, busy] using completion_endsBy s

/-- `raise` sets ERR and ERRCODE, clears BUSY, and writes nothing else (R15). -/
theorem errorReported_raiseError (e : CmdError) (s : State) : ErrorReported e.code s (raiseError e s) :=
  ⟨rfl, rfl, rfl, rfl, rfl, rfl, ⟨rfl, rfl, rfl, rfl, fun _ => rfl, rfl, rfl, rfl, rfl, rfl⟩⟩

/-- Where a check fails, its error is reported (R89, R92). -/
theorem EndsBy.errorReported {s t : State} {code : BitVec 4} (h : EndsBy s (some code) t) : ErrorReported code s t := by
  cases h
  exact errorReported_raiseError _ s

/-- Where all checks pass, ERR and ERRCODE stay as they are. -/
theorem EndsBy.noError {s t : State} (h : EndsBy s none t) :
    t.status.err = s.status.err ∧ t.status.errcode = s.status.errcode := by
  cases h <;> simp

end Sys2Proof.Claims

namespace Sys2Proof.Proofs

open Sys2Proof.Machine Sys2Proof.Claims

/-- Settles O9: the turn ends by the word's first failing check, and without one ERR would stay 0. -/
theorem raisingCommandWritesOnlyStatus : Obligations.RaisingCommandWritesOnlyStatus := by
  unfold Obligations.RaisingCommandWritesOnlyStatus
  intro s t busy noErr turn err
  obtain ⟨u, hu, ends⟩ := engineTurn_endsBy busy
  obtain rfl : u = t := by simpa [hu] using turn
  cases hcode : wordCode s.cmd with
  | none =>
    rw [hcode] at ends
    simp [ends.noError.1, noErr] at err
  | some code =>
    rw [hcode] at ends
    have reported := ends.errorReported
    rw [reported.errcode]
    exact ⟨rfl, reported⟩

end Sys2Proof.Proofs
end

section
/-! PROOFS. The fields of a binary64 encoding and the value that they stand for (R10). -/

namespace Sys2Proof

/-! ### Sign and low bits -/

/-- Bits 62:0 of an encoding: exponent and fraction. -/
def F64.low (x : F64) : Nat := x.expo * 2 ^ 52 + x.frac

theorem F64.low_lt (x : F64) : x.low < 2 ^ 63 := by
  have he := x.expo_lt
  have hf := x.frac_lt
  unfold F64.low
  omega

/-- An encoding is its sign bit and its low bits. -/
theorem F64.toNat_eq (x : F64) : x.toNat = (if x.isNeg then 2 ^ 63 else 0) + x.low := by
  have hx : x.toNat < 2 ^ 64 := x.isLt
  simp only [F64.isNeg, F64.low, F64.expo, F64.frac, decide_eq_true_eq]
  split <;> omega

@[simp] theorem F64.ofBits_isNeg_low (x : F64) : F64.ofBits x.isNeg x.low = x := by
  apply BitVec.eq_of_toNat_eq
  rw [F64.toNat_ofBits _ x.low_lt, ← F64.toNat_eq]

/-- Two encodings with one sign and the same low bits are equal. -/
theorem F64.eq_of_isNeg_low {x y : F64} (neg : x.isNeg = y.isNeg) (low : x.low = y.low) : x = y := by
  rw [← x.ofBits_isNeg_low, ← y.ofBits_isNeg_low, neg, low]

theorem F64.low_ofBits (b : Bool) {low : Nat} (h : low < 2 ^ 63) : (F64.ofBits b low).low = low := by
  rw [F64.low, F64.expo_ofBits b h, F64.frac_ofBits b h]
  omega

/-- The finite encodings lie below the infinity of their sign. -/
theorem F64.isFinite_iff {x : F64} : x.isFinite = true ↔ x.low < infLow := by
  have he := x.expo_lt
  have hf := x.frac_lt
  simp only [F64.isFinite, bne_iff_ne, ne_eq, F64.low, infLow]
  omega

theorem F64.isInf_iff {x : F64} : x.isInf = true ↔ x.low = infLow := by
  have hf := x.frac_lt
  simp only [F64.isInf, Bool.and_eq_true, beq_iff_eq, F64.low, infLow]
  omega

theorem F64.isNaN_iff {x : F64} : x.isNaN = true ↔ infLow < x.low := by
  have he := x.expo_lt
  have hf := x.frac_lt
  simp only [F64.isNaN, Bool.and_eq_true, beq_iff_eq, bne_iff_ne, ne_eq, F64.low, infLow]
  omega

theorem F64.isNaN_eq_false_iff {x : F64} : x.isNaN = false ↔ x.low ≤ infLow := by
  rw [← Bool.not_eq_true, F64.isNaN_iff, Nat.not_lt]

/-! ### Flipping the sign -/

/-- The bits of -0.0 are the sign bit alone. -/
theorem F64.toNat_negZero : F64.negZero.toNat = 2 ^ 63 := by decide

@[simp] theorem F64.low_flip (x : F64) : x.flip.low = x.low := by
  have h : x.flip.toNat % 2 ^ 63 = x.toNat % 2 ^ 63 := by
    rw [F64.flip, BitVec.toNat_xor, Nat.xor_mod_two_pow, F64.toNat_negZero, Nat.mod_self, Nat.xor_zero]
  simp only [F64.low, F64.expo, F64.frac]
  omega

theorem F64.isNeg_eq_msb (x : F64) : x.isNeg = x.msb := (BitVec.msb_eq_decide x).symm

@[simp] theorem F64.isNeg_flip (x : F64) : x.flip.isNeg = !x.isNeg := by
  rw [F64.isNeg_eq_msb, F64.isNeg_eq_msb, F64.flip, BitVec.msb_xor,
    show F64.negZero.msb = true by decide, Bool.xor_true]

theorem F64.isNaN_flip (x : F64) : x.flip.isNaN = x.isNaN := by
  rw [Bool.eq_iff_iff, F64.isNaN_iff, F64.isNaN_iff, F64.low_flip]

/-! ### Significand and scale -/

/-- The exponent of two by which the significand is scaled; subnormals share the smallest normal scale (R10). -/
def F64.scale (x : F64) : Nat := x.expo - 1

/-- The fraction, with the leading one that a normal number hides (R10). -/
def F64.significand (x : F64) : Nat := if x.expo = 0 then x.frac else 2 ^ 52 + x.frac

theorem F64.magnitude_eq (x : F64) : x.magnitude = x.significand * 2 ^ x.scale := by
  unfold F64.magnitude F64.significand F64.scale
  split
  · next h => simp [h]
  · rfl

theorem F64.low_eq (x : F64) : x.low = x.scale * 2 ^ 52 + x.significand := by
  unfold F64.low F64.significand F64.scale
  split <;> omega

theorem F64.significand_lt (x : F64) : x.significand < 2 ^ 53 := by
  have hf := x.frac_lt
  unfold F64.significand
  split <;> omega

/-- Only at the smallest scale is the significand below a normal number's. -/
theorem F64.scale_eq_zero_or (x : F64) : x.scale = 0 ∨ 2 ^ 52 ≤ x.significand := by
  unfold F64.scale F64.significand
  split <;> omega

/-- The magnitude that a significand and a scale in the low bits stand for. The significand 2^53, to which rounding may
carry, stands for 2^52 at the next scale. -/
theorem F64.magnitude_of_low {x : F64} {k q : Nat} (low : x.low = k * 2 ^ 52 + q) (hq : q ≤ 2 ^ 53)
    (hk : k = 0 ∨ 2 ^ 52 ≤ q) : x.magnitude = q * 2 ^ k := by
  have hs := x.significand_lt
  have hor := x.scale_eq_zero_or
  rw [F64.low_eq] at low
  rw [F64.magnitude_eq]
  rcases Nat.lt_or_eq_of_le hq with hlt | rfl
  · obtain ⟨hscale, hsig⟩ : x.scale = k ∧ x.significand = q := by omega
    rw [hscale, hsig]
  · obtain ⟨hscale, hsig⟩ : x.scale = k + 1 ∧ x.significand = 2 ^ 52 := by omega
    rw [hscale, hsig, pow_succ]
    ring

/-- A magnitude is a multiple of 2^k or smaller than every normal number of scale k. -/
theorem F64.dvd_magnitude_or_lt (x : F64) (k : Nat) : 2 ^ k ∣ x.magnitude ∨ 0 < k ∧ x.magnitude < 2 ^ (52 + k) := by
  rw [F64.magnitude_eq]
  rcases Nat.lt_or_ge x.scale k with hlt | hge
  · refine .inr ⟨by omega, ?_⟩
    calc x.significand * 2 ^ x.scale < 2 ^ 53 * 2 ^ x.scale :=
          Nat.mul_lt_mul_of_pos_right x.significand_lt (Nat.two_pow_pos _)
      _ = 2 ^ (53 + x.scale) := (pow_add ..).symm
      _ ≤ 2 ^ (52 + k) := Nat.pow_le_pow_right (by omega) (by omega)
  · exact .inl (Dvd.dvd.mul_left (pow_dvd_pow 2 hge) _)

/-- The magnitude depends on the low bits alone. -/
theorem F64.magnitude_congr {x y : F64} (h : x.low = y.low) : x.magnitude = y.magnitude := by
  rw [F64.magnitude_of_low (h.trans y.low_eq) y.significand_lt.le y.scale_eq_zero_or, ← F64.magnitude_eq]

@[simp] theorem F64.magnitude_flip (x : F64) : x.flip.magnitude = x.magnitude :=
  F64.magnitude_congr x.low_flip

/-- Flipping the sign negates the value. -/
theorem F64.value_flip (x : F64) : x.flip.value = -x.value := by
  cases h : x.isNeg <;> simp [F64.value, h]

end Sys2Proof
end

section
/-! PROOFS. Rounding: to the nearest whole number, and to the nearest binary64 value (R11). -/

namespace Sys2Proof

open Sys2Proof.Claims

/-! ### To a whole number -/

/-- A whole number stays as it is. -/
@[simp] theorem roundHalfEven_mul_two_pow (q d : Nat) : roundHalfEven (q * 2 ^ d) d = q := by
  have hD := Nat.two_pow_pos d
  simp [roundHalfEven, hD.ne]

/-- A distance in natural numbers, where the multiple of the unit is one term. -/
theorem distance_eq_natAbs (m k u : Nat) : distance m k u = ((m : Int) - ((k * 2 ^ u : Nat) : Int)).natAbs := by
  rw [distance, Int.abs_eq_natAbs]
  push_cast
  rfl

/-- The rounded number is within half a unit, and half a unit away only where it is even. -/
theorem roundHalfEven_within (m d : Nat) :
    2 * distance m (roundHalfEven m d) d ≤ (2 ^ d : Nat) ∧
      (2 * distance m (roundHalfEven m d) d = (2 ^ d : Nat) → roundHalfEven m d % 2 = 0) := by
  have hdiv := Nat.div_add_mod' m (2 ^ d)
  have hmod := Nat.mod_lt m (Nat.two_pow_pos d)
  simp only [roundHalfEven, distance_eq_natAbs]
  generalize m / 2 ^ d = q, m % 2 ^ d = r at *
  split
  · rw [Nat.succ_mul]
    generalize q * 2 ^ d = Q, 2 ^ d = D at *
    omega
  · generalize q * 2 ^ d = Q, 2 ^ d = D at *
    omega

/-- No whole number is nearer than the rounded one, and where another one is as near, the rounded one is even. -/
theorem roundHalfEven_nearest (m d j : Nat) :
    distance m (roundHalfEven m d) d ≤ distance m j d ∧
      (distance m (roundHalfEven m d) d = distance m j d → j ≠ roundHalfEven m d → roundHalfEven m d % 2 = 0) := by
  have hwithin := roundHalfEven_within m d
  simp only [distance_eq_natAbs] at *
  generalize roundHalfEven m d = q at *
  rcases Nat.lt_trichotomy j q with h | rfl | h
  · have hstep := Nat.mul_le_mul_right (2 ^ d) (Nat.succ_le_of_lt h)
    rw [Nat.succ_mul] at hstep
    generalize q * 2 ^ d = Q, j * 2 ^ d = J, 2 ^ d = D at *
    omega
  · simp
  · have hstep := Nat.mul_le_mul_right (2 ^ d) (Nat.succ_le_of_lt h)
    rw [Nat.succ_mul] at hstep
    generalize q * 2 ^ d = Q, j * 2 ^ d = J, 2 ^ d = D at *
    omega

/-- From a whole number on, rounding gives no smaller one. -/
theorem le_roundHalfEven {n m d : Nat} (h : n * 2 ^ d ≤ m) : n ≤ roundHalfEven m d := by
  have hq : n ≤ m / 2 ^ d := (Nat.le_div_iff_mul_le (Nat.two_pow_pos d)).2 h
  unfold roundHalfEven
  dsimp only
  split <;> omega

/-- Below a whole number, rounding gives at most that one. -/
theorem roundHalfEven_le {n m d : Nat} (h : m < n * 2 ^ d) : roundHalfEven m d ≤ n := by
  have hq : m / 2 ^ d < n := (Nat.div_lt_iff_lt_mul (Nat.two_pow_pos d)).2 h
  unfold roundHalfEven
  dsimp only
  split <;> omega

/-- Rounding passes an odd number from half a unit past it on. -/
theorem odd_lt_roundHalfEven_iff {p m d : Nat} (odd : p % 2 = 1) :
    p < roundHalfEven m d ↔ (2 * p + 1) * 2 ^ d ≤ 2 * m := by
  have hdiv := Nat.div_add_mod' m (2 ^ d)
  have hmod := Nat.mod_lt m (Nat.two_pow_pos d)
  rw [Nat.succ_mul, Nat.mul_assoc]
  rcases Nat.lt_trichotomy (m / 2 ^ d) p with h | h | h
  · have hlt : m < p * 2 ^ d := (Nat.div_lt_iff_lt_mul (Nat.two_pow_pos d)).1 h
    have hle := roundHalfEven_le hlt
    omega
  · simp only [roundHalfEven, h] at *
    generalize p * 2 ^ d = P, 2 ^ d = D, m % 2 ^ d = r at *
    split <;> omega
  · have hge : (p + 1) * 2 ^ d ≤ m := (Nat.le_div_iff_mul_le (Nat.two_pow_pos d)).1 h
    have hlt := le_roundHalfEven hge
    rw [Nat.succ_mul] at hge
    omega

/-! ### To a binary64 value -/

theorem le_droppedBits (m u : Nat) : u ≤ droppedBits m u := Nat.le_max_left ..

/-- Rounding keeps at most 53 bits. -/
theorem lt_two_pow_droppedBits (m u : Nat) : m < 2 ^ (53 + droppedBits m u) := by
  refine (Nat.lt_log2_self (n := m)).trans_le (Nat.pow_le_pow_right (by omega) ?_)
  rw [droppedBits, floorLog2_eq]
  omega

/-- Where rounding drops more than it must for the unit, it keeps all of 53 bits. -/
theorem two_pow_droppedBits_le {m u : Nat} (h : u < droppedBits m u) : 2 ^ (52 + droppedBits m u) ≤ m := by
  rw [droppedBits, floorLog2_eq] at *
  rw [← Nat.le_log2 (by rintro rfl; simp at h)]
  omega

/-- The number of dropped bits, by the size of the magnitude. -/
theorem droppedBits_eq {m u k : Nat} (lt : m < 2 ^ (53 + (k + u))) (le : k = 0 ∨ 2 ^ (52 + (k + u)) ≤ m) :
    droppedBits m u = k + u := by
  rw [droppedBits, floorLog2_eq]
  rcases Nat.eq_zero_or_pos m with rfl | hm
  · have h0 : k = 0 := le.resolve_right (by simp)
    simp [h0]
  · rw [← Nat.log2_lt hm.ne'] at lt
    rw [← Nat.le_log2 hm.ne'] at le
    omega

/-- The rounded significand is at most 2^53, to which it may carry. -/
theorem roundHalfEven_droppedBits_le (m u : Nat) : roundHalfEven m (droppedBits m u) ≤ 2 ^ 53 := by
  apply roundHalfEven_le
  rw [← pow_add]
  exact lt_two_pow_droppedBits m u

/-- The rounded significand is a normal number's at every scale but the first. -/
theorem droppedBits_eq_or_le_roundHalfEven (m u : Nat) :
    droppedBits m u - u = 0 ∨ 2 ^ 52 ≤ roundHalfEven m (droppedBits m u) := by
  rcases Nat.eq_zero_or_pos (droppedBits m u - u) with h | h
  · exact .inl h
  · right
    apply le_roundHalfEven
    rw [← pow_add]
    exact two_pow_droppedBits_le (by omega)

/-- Rounding packs the sign and, unless they reach an infinity's, the scale and the significand. -/
theorem roundPack_bits (neg : Bool) (m u : Nat) :
    (roundPack neg m u).isNeg = neg ∧ (roundPack neg m u).low =
      min ((droppedBits m u - u) * 2 ^ 52 + roundHalfEven m (droppedBits m u)) infLow := by
  have hinf : infLow < 2 ^ 63 := by decide
  exact ⟨F64.isNeg_ofBits neg (by omega), F64.low_ofBits neg (by omega)⟩

@[simp] theorem isNeg_roundPack (neg : Bool) (m u : Nat) : (roundPack neg m u).isNeg = neg :=
  (roundPack_bits neg m u).1

theorem low_roundPack (neg : Bool) (m u : Nat) : (roundPack neg m u).low =
    min ((droppedBits m u - u) * 2 ^ 52 + roundHalfEven m (droppedBits m u)) infLow :=
  (roundPack_bits neg m u).2

/-- Rounding gives no NaN. -/
@[simp] theorem isNaN_roundPack (neg : Bool) (m u : Nat) : (roundPack neg m u).isNaN = false := by
  rw [F64.isNaN_eq_false_iff, low_roundPack]
  exact Nat.min_le_right ..

theorem isInf_roundPack_of_not_finite {neg : Bool} {m u : Nat} (h : (roundPack neg m u).isFinite = false) :
    (roundPack neg m u).isInf = true := by
  rw [← Bool.not_eq_true, F64.isFinite_iff, low_roundPack] at h
  rw [F64.isInf_iff, low_roundPack]
  omega

/-- What a finite rounded value packs. -/
theorem low_roundPack_of_finite {neg : Bool} {m u : Nat} (h : (roundPack neg m u).isFinite = true) :
    (roundPack neg m u).low = (droppedBits m u - u) * 2 ^ 52 + roundHalfEven m (droppedBits m u) := by
  rw [F64.isFinite_iff, low_roundPack] at h
  rw [low_roundPack]
  omega

theorem magnitude_roundPack {neg : Bool} {m u : Nat} (h : (roundPack neg m u).isFinite = true) :
    (roundPack neg m u).magnitude = roundHalfEven m (droppedBits m u) * 2 ^ (droppedBits m u - u) :=
  F64.magnitude_of_low (low_roundPack_of_finite h) (roundHalfEven_droppedBits_le m u)
    (droppedBits_eq_or_le_roundHalfEven m u)

/-- The fraction of a finite rounded value is even where the rounded significand is. -/
theorem frac_roundPack {neg : Bool} {m u : Nat} (h : (roundPack neg m u).isFinite = true) :
    (roundPack neg m u).frac % 2 = roundHalfEven m (droppedBits m u) % 2 := by
  have hlow := low_roundPack_of_finite h
  rw [F64.low] at hlow
  omega

/-- A finite value is its own rounding, in every unit. -/
theorem roundPack_magnitude {y : F64} (h : y.isFinite = true) (u : Nat) :
    roundPack y.isNeg (y.magnitude * 2 ^ u) u = y := by
  have hm : y.magnitude * 2 ^ u = y.significand * 2 ^ (y.scale + u) := by
    rw [F64.magnitude_eq, Nat.mul_assoc, pow_add]
  have hd : droppedBits (y.magnitude * 2 ^ u) u = y.scale + u := by
    apply droppedBits_eq
    · rw [hm, pow_add _ 53]
      exact Nat.mul_lt_mul_of_pos_right y.significand_lt (Nat.two_pow_pos _)
    · refine y.scale_eq_zero_or.imp_right fun hsig => ?_
      rw [hm, pow_add _ 52]
      exact Nat.mul_le_mul_right _ hsig
  apply F64.eq_of_isNeg_low (isNeg_roundPack ..)
  rw [low_roundPack, hd, hm, roundHalfEven_mul_two_pow, Nat.add_sub_cancel, ← F64.low_eq]
  exact Nat.min_eq_left (F64.isFinite_iff.1 h).le

/-! ### Nearest -/

/-- A distance to a multiple of a scaled unit. -/
theorem distance_mul_two_pow (m q k u : Nat) : distance m (q * 2 ^ k) u = distance m q (k + u) := by
  rw [distance_eq_natAbs, distance_eq_natAbs, Nat.mul_assoc, pow_add]

/-- A finite value that is no multiple of the rounded value's unit is farther than the rounded value: the smallest normal
number of that scale lies between. -/
theorem distance_roundHalfEven_lt {m u y : Nat} (hd : u < droppedBits m u) (hy : y < 2 ^ (52 + (droppedBits m u - u))) :
    distance m (roundHalfEven m (droppedBits m u)) (droppedBits m u) < distance m y u := by
  have hm : 2 ^ 52 * 2 ^ droppedBits m u ≤ m := by
    rw [← pow_add]
    exact two_pow_droppedBits_le hd
  have hyu : y * 2 ^ u < 2 ^ 52 * 2 ^ droppedBits m u := by
    calc y * 2 ^ u < 2 ^ (52 + (droppedBits m u - u)) * 2 ^ u := Nat.mul_lt_mul_of_pos_right hy (Nat.two_pow_pos _)
      _ = 2 ^ 52 * 2 ^ droppedBits m u := by rw [← pow_add, ← pow_add]; congr 1; omega
  refine (roundHalfEven_nearest m (droppedBits m u) (2 ^ 52)).1.trans_lt ?_
  rw [distance_eq_natAbs, distance_eq_natAbs]
  generalize 2 ^ 52 * 2 ^ droppedBits m u = N, y * 2 ^ u = Y at *
  omega

/-- No binary64 value is nearer than a finite rounded one, and where another is as near, the rounded one's fraction is
even (R11). -/
theorem roundPack_nearest {neg : Bool} {m u : Nat} (h : (roundPack neg m u).isFinite = true) (y : F64) :
    distance m (roundPack neg m u).magnitude u ≤ distance m y.magnitude u ∧
      (distance m (roundPack neg m u).magnitude u = distance m y.magnitude u →
        y.magnitude ≠ (roundPack neg m u).magnitude → (roundPack neg m u).frac % 2 = 0) := by
  have hunit : droppedBits m u - u + u = droppedBits m u := Nat.sub_add_cancel (le_droppedBits m u)
  rw [frac_roundPack h, magnitude_roundPack h, distance_mul_two_pow, hunit]
  rcases y.dvd_magnitude_or_lt (droppedBits m u - u) with ⟨j, hj⟩ | ⟨hd, hlt⟩
  · have hnearest := roundHalfEven_nearest m (droppedBits m u) j
    rw [hj, Nat.mul_comm, distance_mul_two_pow, hunit]
    exact ⟨hnearest.1, fun heq hne => hnearest.2 heq fun hjq => hne (by rw [hjq])⟩
  · have hfar := distance_roundHalfEven_lt (Nat.lt_of_sub_pos hd) hlt
    exact ⟨hfar.le, fun heq => absurd heq hfar.ne⟩

/-! ### Overflow -/

/-- The rounded low bits reach an infinity's from half a unit past the largest finite value on. The cases are the scales
above, at and below that of the largest finite value. -/
theorem infLow_le_iff (m u : Nat) :
    infLow ≤ (droppedBits m u - u) * 2 ^ 52 + roundHalfEven m (droppedBits m u) ↔
      (2 ^ 54 - 1) * 2 ^ (2044 + u) ≤ m := by
  have hle := le_droppedBits m u
  have hq := roundHalfEven_droppedBits_le m u
  have hor := droppedBits_eq_or_le_roundHalfEven m u
  rcases Nat.lt_trichotomy (droppedBits m u) (2045 + u) with hd | hd | hd
  · have hm : m < 2 ^ 53 * 2 ^ (2044 + u) := by
      refine (lt_two_pow_droppedBits m u).trans_le ?_
      rw [← pow_add]
      exact Nat.pow_le_pow_right (by omega) (by omega)
    unfold infLow
    omega
  · have hodd := odd_lt_roundHalfEven_iff (p := 2 ^ 53 - 1) (m := m) (d := droppedBits m u) rfl
    have hpow : 2 ^ droppedBits m u = 2 * 2 ^ (2044 + u) := by rw [hd, ← pow_succ']; congr 1; omega
    rw [hpow] at hodd
    unfold infLow
    omega
  · have hm : 2 ^ 54 * 2 ^ (2044 + u) ≤ m := by
      refine le_trans ?_ (two_pow_droppedBits_le (m := m) (u := u) (by omega))
      rw [← pow_add]
      exact Nat.pow_le_pow_right (by omega) (by omega)
    unfold infLow
    omega

/-- Rounding gives an infinity exactly from half a unit past the largest finite value on (R11). -/
theorem roundPack_not_finite_iff (neg : Bool) (m u : Nat) :
    (roundPack neg m u).isFinite = false ↔ (2 ^ 54 - 1) * 2 ^ 2044 * 2 ^ u ≤ m := by
  rw [Nat.mul_assoc, ← pow_add, ← infLow_le_iff, ← Bool.not_eq_true, F64.isFinite_iff, low_roundPack]
  omega

end Sys2Proof

namespace Sys2Proof.Proofs

open Sys2Proof.Claims

/-- Settles O27: the rounded significand is nearest at its own scale, and every value off that scale is farther. -/
theorem roundingIsNearestTiesToEven : Obligations.RoundingIsNearestTiesToEven := by
  unfold Obligations.RoundingIsNearestTiesToEven
  intro neg m u
  exact ⟨isNeg_roundPack neg m u, roundPack_not_finite_iff neg m u, isInf_roundPack_of_not_finite,
    fun finite y _ => roundPack_nearest finite y⟩

end Sys2Proof.Proofs
end

section
/-! PROOFS. Addition and multiplication of binary64 values: exact results, order of operands, NaNs (R11, R12). -/

namespace Sys2Proof

open Sys2Proof.Claims

/-! ### Values -/

theorem F64.value_eq_zero_iff {x : F64} : x.value = 0 ↔ x.magnitude = 0 := by
  unfold F64.value
  split <;> simp

theorem F64.natAbs_value (x : F64) : x.value.natAbs = x.magnitude := by
  unfold F64.value
  split <;> simp

/-- A value other than zero has the sign of its encoding. -/
theorem F64.value_neg_iff {x : F64} (h : x.value ≠ 0) : x.value < 0 ↔ x.isNeg = true := by
  rw [ne_eq, F64.value_eq_zero_iff] at h
  unfold F64.value
  cases x.isNeg
  · simp
  · simp
    omega

theorem F64.low_eq_zero_of_magnitude {x : F64} (h : x.magnitude = 0) : x.low = 0 := by
  have hor := x.scale_eq_zero_or
  have hsig : x.significand = 0 := by simpa [F64.magnitude_eq] using h
  rw [F64.low_eq]
  omega

/-- Of the two zeros the negative one is -0. -/
theorem F64.eq_negZero_iff {x : F64} : x = F64.negZero ↔ x.isNeg = true ∧ x.magnitude = 0 := by
  constructor
  · rintro rfl
    decide
  · rintro ⟨hneg, hmag⟩
    exact F64.eq_of_isNeg_low hneg (F64.low_eq_zero_of_magnitude hmag)

/-! ### Exact sums -/

/-- A sum that is a binary64 value other than zero is that value (R11). -/
theorem addFinite_exact {a b y : F64} (finite : y.isFinite = true) (sum : y.value = a.value + b.value)
    (ne : y.value ≠ 0) : addFinite a b = y := by
  have hneg : decide (y.value < 0) = y.isNeg := by
    rw [Bool.eq_iff_iff, decide_eq_true_eq, F64.value_neg_iff ne]
  simp only [addFinite, ← sum, if_neg ne, hneg, F64.natAbs_value]
  simpa using roundPack_magnitude finite 0

/-- A zero sum is +0 unless both operands are -0: operands of one sign add to zero only where both are zeros (R11). -/
theorem addFinite_zero {a b : F64} (sum : a.value + b.value = 0) :
    addFinite a b = if a = F64.negZero ∧ b = F64.negZero then F64.negZero else F64.zero := by
  have hzeros : (a.isNeg && b.isNeg) = true ↔ a = F64.negZero ∧ b = F64.negZero := by
    rw [Bool.and_eq_true, F64.eq_negZero_iff, F64.eq_negZero_iff]
    refine ⟨fun ⟨ha, hb⟩ => ?_, fun ⟨⟨ha, _⟩, hb, _⟩ => ⟨ha, hb⟩⟩
    simp only [F64.value, ha, hb, if_true] at sum
    exact ⟨⟨ha, by omega⟩, hb, by omega⟩
  simp only [addFinite, sum, if_true, hzeros]

/-! ### Order of the operands -/

theorem addFinite_comm (a b : F64) : addFinite a b = addFinite b a := by
  simp only [addFinite, Int.add_comm, Bool.and_comm]

/-- Two infinities of one sign are one encoding. -/
theorem F64.eq_of_isInf {a b : F64} (ha : a.isInf = true) (hb : b.isInf = true) (h : a.isNeg = b.isNeg) : a = b :=
  F64.eq_of_isNeg_low h ((F64.isInf_iff.1 ha).trans (F64.isInf_iff.1 hb).symm)

theorem fadd_comm (c a b : F64) : fadd c a b = fadd c b a := by
  unfold fadd
  rw [Bool.or_comm]
  by_cases ha : a.isInf = true <;> by_cases hb : b.isInf = true
  · by_cases hs : a.isNeg = b.isNeg
    · rw [F64.eq_of_isInf ha hb hs]
    · simp [ha, hb, hs, Ne.symm hs]
  · simp [ha, hb]
  · simp [ha, hb]
  · simp [ha, hb, addFinite_comm]

theorem fmul_comm (c a b : F64) : fmul c a b = fmul c b a := by
  simp only [fmul, Bool.or_comm, bne_comm, Nat.mul_comm]

/-! ### Multiplication by 1.0 -/

/-- The magnitude of 1.0 is 2^1074 units of 2^-1074. -/
theorem magnitude_one : one.magnitude = 2 ^ 1074 := by
  rw [F64.magnitude_of_low (x := one) (k := 1022) (q := 2 ^ 52) (by decide) (by decide) (by decide), ← pow_add]

theorem F64.isInf_or_isFinite {x : F64} (h : x.isNaN = false) : x.isInf = true ∨ x.isFinite = true := by
  rw [F64.isNaN_eq_false_iff] at h
  rw [F64.isInf_iff, F64.isFinite_iff]
  omega

/-- An infinity is that of its sign. -/
theorem F64.inf_isNeg {x : F64} (h : x.isInf = true) : F64.inf x.isNeg = x := by
  rw [F64.inf, ← F64.isInf_iff.1 h, F64.ofBits_isNeg_low]

theorem F64.isZero_iff {x : F64} : x.isZero = true ↔ x.low = 0 := by
  simp only [F64.isZero, Bool.and_eq_true, beq_iff_eq, F64.low]
  omega

/-- An infinity times what is neither a NaN nor a zero is an infinity (R11). -/
theorem fmul_inf {c a b : F64} (ha : a.isNaN = false) (hb : b.isNaN = false) (inf : a.isInf = true)
    (a0 : a.isZero = false) (b0 : b.isZero = false) : fmul c a b = F64.inf (a.isNeg != b.isNeg) := by
  simp [fmul, ha, hb, inf, a0, b0]

/-- Multiplying by 1.0 keeps an infinity, and rounds a finite value's own magnitude. -/
theorem fmul_one {c x : F64} (h : x.isNaN = false) : fmul c x one = x := by
  have hsign : (x.isNeg != one.isNeg) = x.isNeg := by simp [show one.isNeg = false by decide]
  rcases F64.isInf_or_isFinite h with hinf | hfin
  · have hzero : x.isZero = false := by
      rw [← Bool.not_eq_true, F64.isZero_iff, F64.isInf_iff.1 hinf]
      decide
    rw [fmul_inf h (by decide) hinf hzero (by decide), hsign, F64.inf_isNeg hinf]
  · rw [fmul_finite hfin (by decide), hsign, magnitude_one, roundPack_magnitude hfin]

/-! ### NaN results -/

theorem F64.isNaN_of_isInf {x : F64} (h : x.isInf = true) : x.isNaN = false := by
  rw [F64.isNaN_eq_false_iff, F64.isInf_iff.1 h]

theorem F64.isNaN_inf (neg : Bool) : (F64.inf neg).isNaN = false := by
  cases neg <;> decide

theorem isNaN_addFinite (a b : F64) : (addFinite a b).isNaN = false := by
  unfold addFinite
  dsimp only
  split
  · split <;> decide
  · exact isNaN_roundPack ..

/-- An addition gives the drawn encoding, an infinite operand, or the rounded sum. -/
theorem fadd_cases (c a b : F64) :
    fadd c a b = c ∨ fadd c a b = a ∧ a.isInf = true ∨ fadd c a b = b ∧ b.isInf = true ∨
      fadd c a b = addFinite a b := by
  unfold fadd
  split
  · exact .inl rfl
  · split
    · next ha =>
      split
      · exact .inl rfl
      · exact .inr (.inl ⟨rfl, ha⟩)
    · split
      · next hb => exact .inr (.inr (.inl ⟨rfl, hb⟩))
      · exact .inr (.inr (.inr rfl))

/-- A multiplication gives the drawn encoding, an infinity, or the rounded product. -/
theorem fmul_cases (c a b : F64) :
    fmul c a b = c ∨ fmul c a b = F64.inf (a.isNeg != b.isNeg) ∨
      fmul c a b = roundPack (a.isNeg != b.isNeg) (a.magnitude * b.magnitude) 1074 := by
  unfold fmul
  dsimp only
  split
  · exact .inl rfl
  · split
    · split
      · exact .inl rfl
      · exact .inr (.inl rfl)
    · exact .inr (.inr rfl)

/-- A NaN sum is the drawn encoding (R12). -/
theorem fadd_of_isNaN {c a b : F64} (h : (fadd c a b).isNaN = true) : fadd c a b = c := by
  rcases fadd_cases c a b with hr | ⟨hr, hinf⟩ | ⟨hr, hinf⟩ | hr
  · exact hr
  · simp [hr, F64.isNaN_of_isInf hinf] at h
  · simp [hr, F64.isNaN_of_isInf hinf] at h
  · simp [hr, isNaN_addFinite] at h

/-- A NaN product is the drawn encoding (R12). -/
theorem fmul_of_isNaN {c a b : F64} (h : (fmul c a b).isNaN = true) : fmul c a b = c := by
  rcases fmul_cases c a b with hr | hr | hr
  · exact hr
  · simp [hr, F64.isNaN_inf] at h
  · simp [hr] at h

/-- A NaN encoding is the one drawn where the free bits are its own (R12). -/
theorem nanOf_of_isNaN {y : F64} (h : y.isNaN = true) : nanOf y = y := by
  have hlow : infLow + max 1 y.frac = y.low := by
    rw [F64.isNaN_iff] at h
    have he := y.expo_lt
    have hf := y.frac_lt
    unfold F64.low infLow at *
    omega
  rw [nanOf, hlow, F64.ofBits_isNeg_low]

end Sys2Proof

namespace Sys2Proof.Proofs

open Sys2Proof.Claims

/-- Settles O28: rounding an exact sum gives it back, and two values of one sign add to zero only as two zeros. -/
theorem additionIsExactWhereItCanBe : Obligations.AdditionIsExactWhereItCanBe := by
  unfold Obligations.AdditionIsExactWhereItCanBe
  intro c a b ha hb
  rw [fadd_finite ha hb]
  exact ⟨fun y => addFinite_exact, addFinite_zero⟩

/-- Settles O29: each branch of fadd and fmul is symmetric, and the flip exchanges the sign bit alone. -/
theorem additionAndMultiplicationCommute : Obligations.AdditionAndMultiplicationCommute := by
  unfold Obligations.AdditionAndMultiplicationCommute
  exact fun c a b => ⟨fadd_comm c a b, fmul_comm c a b, fun _ _ => ⟨b.value_flip, rfl⟩⟩

/-- Settles O30: an infinity keeps its sign, and a finite value is the rounding of its own magnitude. -/
theorem multiplyingByOneKeepsTheValue : Obligations.MultiplyingByOneKeepsTheValue := by
  unfold Obligations.MultiplyingByOneKeepsTheValue
  exact fun _ _ => fmul_one

/-- Settles O31: no branch but the drawn one gives a NaN, and a NaN drawn from its own bits is itself. -/
theorem nanResultsAreTheDrawnEncodings : Obligations.NaNResultsAreTheDrawnEncodings := by
  unfold Obligations.NaNResultsAreTheDrawnEncodings
  refine ⟨fun c a b => ⟨fadd_of_isNaN, fadd_of_isNaN, fmul_of_isNaN⟩, fun c a b h => ?_, isNaN_nanOf,
    fun y h => ⟨y, nanOf_of_isNaN h⟩⟩
  exact ⟨fadd_nan h, fadd_nan (by rwa [F64.isNaN_flip]), fmul_nan h⟩

end Sys2Proof.Proofs
end

section
/-! PROOFS. The parts of the invariant along each operation, and along a step (R22 to R26, R33, R34, R36). -/

namespace Sys2Proof.Machine

/-! ### The parts -/

/-- A store into a buffer keeps the marked bytes in the buffers (R33). -/
theorem Memory.inBuffers_store {m : Memory} (h : m.InBuffers) {b : Nat} {bs : List Byte}
    (place : ∀ a, b ≤ a → a < b + bs.length → inIbuf a = true ∨ inObuf a = true) : (m.store b bs).InBuffers := by
  intro c hc
  rcases Memory.mem_store hc with old | ⟨lo, hi⟩
  · exact h c old
  · exact place c.1 lo hi

/-- The invariant speaks of STATUS, the buffers and the snapshot alone. -/
theorem State.Inv.congr {s t : State} (h : s.Inv) (status : t.status = s.status) (mem : t.mem = s.mem)
    (snap : t.snap = s.snap) : t.Inv :=
  ⟨status ▸ h.status, mem ▸ h.memForm, mem ▸ h.memPlace, mem ▸ h.memMarks, snap ▸ h.snapForm, snap ▸ h.snapPlace,
    snap ▸ h.snapMarks⟩

/-- Legal flags keep the invariant. -/
theorem State.Inv.setStatus {s : State} (h : s.Inv) {t : Status} (legal : t.Legal) : (s.setStatus t).Inv :=
  ⟨legal, h.memForm, h.memPlace, h.memMarks, h.snapForm, h.snapPlace, h.snapMarks⟩

/-- A store of whole halves into a buffer keeps the invariant. -/
theorem State.Inv.store {s : State} (h : s.Inv) {b : Nat} {bs : List Byte} (start : b % 4 = 0)
    (length : bs.length % 4 = 0)
    (place : ∀ a, b ≤ a → a < b + bs.length → inIbuf a = true ∨ inObuf a = true) :
    (s.setMem (s.mem.store b bs)).Inv :=
  ⟨h.status, Memory.wf_store h.memForm b bs, Memory.inBuffers_store h.memPlace place,
    Memory.wholeHalves_store h.memMarks start length, h.snapForm, h.snapPlace, h.snapMarks⟩

theorem bufferBase_aligned (b : BufSel) : bufferBase b % 4 = 0 := by
  cases b <;> rfl

/-- An acceptance keeps the invariant: the snapshot inherits its form and marks from the buffers (R36, R91). -/
theorem State.Inv.accept {s : State} (h : s.Inv) (w : Word) : (s.accept w).Inv where
  status := h.status.accept
  memForm := h.memForm
  memPlace := h.memPlace
  memMarks := h.memMarks
  snapForm := Memory.wf_slice h.memForm _ _
  snapPlace _ := Memory.mem_slice
  snapMarks := Memory.wholeHalves_slice h.memMarks (bufferBase_aligned _) rfl

/-- The state after reset has the invariant (R103). -/
theorem State.inv_reset : State.reset.Inv where
  status := by constructor <;> simp [State.reset, Status.reset]
  memForm := List.Pairwise.nil
  memPlace _ := fun h => nomatch h
  memMarks _ _ _ _ := rfl
  snapForm := List.Pairwise.nil
  snapPlace _ := fun h => nomatch h
  snapMarks _ _ _ _ := rfl

/-! ### The steps -/

/-- A vector of at most 256 words fits OBUF (R33, R48). -/
theorem State.Inv.finishVector {s : State} (h : s.Inv) (busy : s.status.busy = true) {n : Nat} {xs : List F64}
    (size : n ≤ 256) (length : xs.length = n) : (finishVector n xs s).Inv := by
  have bytes := flatMap_wordBytes_length xs
  have stored : (s.setMem (s.mem.store Config.obufBase (xs.flatMap wordBytes))).Inv :=
    h.store rfl (by omega) fun a (lo : 0x2000 ≤ a) (hi : a < 0x2000 + _) => .inr (inObuf_iff.2 (by omega))
  exact (stored.setStatus (h.status.succeed busy size)).congr rfl rfl rfl

/-- A completion keeps the invariant, whichever way it ends (R92). -/
theorem Ends.inv {s t : State} (ends : Ends s t) (h : s.Inv) (busy : s.status.busy = true) : t.Inv := by
  cases ends with
  | error e => exact h.setStatus (h.status.fail busy e)
  | fault => exact h.congr rfl rfl rfl
  | vector l xs size length => exact h.finishVector busy size length
  | scalar v => exact (h.setStatus (h.status.succeed busy (Nat.zero_le 256))).congr rfl rfl rfl

/-- A read keeps the invariant (R44). -/
theorem ReadEnds.inv {s t : State} {master : Nat} (ends : ReadEnds s master t) (h : s.Inv) : t.Inv := by
  obtain ⟨-, status, -, -, -, mem, snap, -⟩ := ends.frame
  exact h.congr status mem snap

/-- An admitted write to IBUF stays in it: no admitted access crosses a buffer's end (R40). -/
theorem inIbuf_of_admitted {a w : Nat} (taken : admitted a w = true) (place : inIbuf a = true) {b : Nat} (lo : a ≤ b)
    (hi : b < a + w) : inIbuf b = true := by
  rw [admitted_iff] at taken
  rw [inIbuf_iff] at place ⊢
  omega

theorem admitted_aligned {a w : Nat} (taken : admitted a w = true) : a % 4 = 0 ∧ w % 4 = 0 := by
  rw [admitted_iff] at taken
  omega

/-- An admitted write keeps the invariant (R47). -/
theorem WriteEnds.inv {a w : Nat} {v : F64} {s t : State} (ends : WriteEnds a w v s t) (taken : admitted a w = true)
    (h : s.Inv) : t.Inv := by
  cases ends with
  | ignored => exact h
  | control => exact h.congr rfl rfl rfl
  | cleared place => exact h.setStatus (h.status.clearBits _)
  | dropped busy place => exact h.setStatus h.status.writeDropped
  | stored busy place =>
    have length := storeBytes_length taken v
    obtain ⟨start, width⟩ := admitted_aligned taken
    exact h.store start (by rw [length, width]) fun b lo hi =>
      .inl (inIbuf_of_admitted taken place lo (by rwa [length] at hi))
  | accepted busy place => exact h.accept _

theorem State.Inv.setScript {s : State} (h : s.Inv) (es : List Event) : (s.setScript es).Inv :=
  h.congr rfl rfl rfl

/-- Every move keeps the invariant. -/
theorem Moved.inv {s t : State} (moved : Moved s t) (h : s.Inv) : t.Inv := by
  cases moved with
  | idle t empty busy same => exact same ▸ h
  | last t empty busy ends => exact ends.inv h busy
  | skip rest turn busy => exact h.setScript rest
  | complete rest t turn busy ends => exact ends.inv (h.setScript rest) busy
  | reset rest turn => exact State.inv_reset.congr rfl rfl rfl
  | read master a w rest t turn place ends => exact ends.inv (h.setScript rest)
  | refusedWrite master a w v rest turn place refused => exact h.congr rfl rfl rfl
  | write master a w v rest t turn place taken ends =>
    exact (ends.inv taken (h.setScript rest)).congr rfl rfl rfl

end Sys2Proof.Machine

namespace Sys2Proof.Proofs

open Sys2Proof.Machine Sys2Proof.Claims

/-- Settles O48: each way to move keeps every part, a store by its alignment and place, a completion by BUSY's flags. -/
theorem everyStepKeepsTheInvariant : Obligations.EveryStepKeepsTheInvariant := by
  unfold Obligations.EveryStepKeepsTheInvariant
  exact fun s t h turn => (step_moved turn).inv h

end Sys2Proof.Proofs
end

section
/-! PROOFS. What the step is at a turn of the host or of the reset, and what a register reads as (R20 to R31, R46, R47,
R102). -/

namespace Sys2Proof.Machine

/-! ### The turns -/

/-- A read's turn in the window (R46). -/
theorem step_read {s : State} {master a w : Nat} {rest : List Event} (turn : s.script = .read master a w :: rest)
    (place : a < Config.windowSize) : step s = .next (hostRead master a w (s.setScript rest)) := by
  simp only [step, nextTurn, turn, runEvent, hostAccess, if_neg (Nat.not_le.2 place)]

/-- An admitted write's turn (R47). -/
theorem step_write {s : State} {master a w : Nat} {v : F64} {rest : List Event}
    (turn : s.script = .write master a w v :: rest) (place : a < Config.windowSize) (taken : admitted a w = true) :
    step s = .next ((writeTarget a w v (s.setScript rest)).respond master .written) := by
  simp [step, nextTurn, turn, runEvent, hostAccess, hostWrite, if_neg (Nat.not_le.2 place), taken]

/-- A refused write's turn in the window (R41). -/
theorem step_refusedWrite {s : State} {master a w : Nat} {v : F64} {rest : List Event}
    (turn : s.script = .write master a w v :: rest) (place : a < Config.windowSize) (refused : admitted a w = false) :
    step s = .next (refuseAccess master (s.setScript rest)) := by
  simp [step, nextTurn, turn, runEvent, hostAccess, hostWrite, if_neg (Nat.not_le.2 place), refused]

/-- The reset's turn (R102). -/
theorem step_reset {s : State} {rest : List Event} (turn : s.script = .reset :: rest) :
    step s = .next (platformReset (s.setScript rest)) := by
  simp only [step, nextTurn, turn, runEvent]

/-! ### The registers

The address map is one chain of tests on the offset (R45). The first three lemmas read an offset off its target, the
fourth follows the chain to its end. -/

theorem targetOf_resultLo {a : Nat} (h : targetOf a = .resultLo) : a = 0x010 := by
  grind [targetOf]

theorem targetOf_resultHi {a : Nat} (h : targetOf a = .resultHi) : a = 0x014 := by
  grind [targetOf]

theorem targetOf_obuf {a : Nat} (h : targetOf a = .obuf) : inObuf a = true := by
  grind [targetOf]

/-- Past the registers and outside the buffers the window is reserved (R45). -/
theorem targetOf_reserved {a : Nat} (past : 0x018 < a) (notIbuf : ¬ inIbuf a = true) (notObuf : ¬ inObuf a = true) :
    targetOf a = .reserved := by
  grind [targetOf]

/-- The word that a register holds for a read, 0 at a reserved offset (R20 to R31). The buffers are no registers. -/
def State.registerWord (s : State) : Target → Word
  | .id => Config.idValue
  | .ctrl => s.ctrlWord
  | .status => s.status.word
  | .cmd => s.cmd
  | .resultLo => s.resultLo
  | .resultHi => s.resultHi
  | .caps => Config.capsValue
  | .ibuf => 0#32
  | .obuf => 0#32
  | .reserved => 0#32

theorem State.registerWord_setScript (s : State) (es : List Event) (target : Target) :
    (s.setScript es).registerWord target = s.registerWord target := by
  cases target <;> rfl

/-- A read outside the buffers answers that word, of the RESULT pair while BUSY = 0 (R46). -/
theorem hostRead_register {s : State} {a : Nat} (master : Nat) (aligned : a % 4 = 0) (notIbuf : ¬ inIbuf a = true)
    (notObuf : ¬ inObuf a = true) (idle : a = 0x010 ∨ a = 0x014 → s.status.busy = false) :
    hostRead master a 4 s = s.respond master (wordData (s.registerWord (targetOf a))) := by
  have taken : admitted a 4 = true := admitted_iff.2 (.inl ⟨rfl, aligned⟩)
  simp only [hostRead, taken, Bool.not_true, Bool.false_eq_true, if_false]
  cases target : targetOf a with
  | ibuf => exact absurd (targetOf_ibuf target) notIbuf
  | obuf => exact absurd (targetOf_obuf target) notObuf
  | resultLo => simp [readResult, idle (.inl (targetOf_resultLo target)), State.registerWord]
  | resultHi => simp [readResult, idle (.inr (targetOf_resultHi target)), State.registerWord]
  | _ => rfl

/-- CTRL's only bit is IE (R21). -/
theorem State.ctrlWord_setWidth (s : State) : s.ctrlWord.setWidth 64 = if s.ie then 1#64 else 0#64 := by
  unfold State.ctrlWord
  cases s.ie <;> rfl

/-- STATUS ends below bit 17, and so does the zero-extended word (R22). -/
theorem Status.word_setWidth_high (t : Status) : (t.word.setWidth 64).extractLsb' 17 47 = 0#47 := by
  ext i hi
  by_cases low : i < 15
  · have bit : (t.word.extractLsb' 17 15).getLsbD i = false := by rw [t.word_reserved]; simp
    simpa [low] using fun _ => bit
  · simp [BitVec.getLsbD_of_ge t.word (17 + i) (by omega)]

/-- The fields of STATUS in the 64 bits of a read's answer (R22, R46). -/
theorem Status.word_setWidth_fields (t : Status) :
    (t.word.setWidth 64).getLsbD 0 = t.busy ∧ (t.word.setWidth 64).getLsbD 1 = t.done ∧
      (t.word.setWidth 64).getLsbD 2 = t.err ∧ (t.word.setWidth 64).getLsbD 3 = t.werr ∧
      (t.word.setWidth 64).extractLsb' 4 4 = t.errcode ∧ (t.word.setWidth 64).extractLsb' 8 9 = t.olen ∧
      (t.word.setWidth 64).extractLsb' 17 47 = 0#47 := by
  obtain ⟨busy, done, err, werr⟩ := t.word_flags
  rw [← t.word_errcode, ← t.word_olen]
  refine ⟨?_, ?_, ?_, ?_, ?_, ?_, t.word_setWidth_high⟩
  · simpa using busy
  · simpa using done
  · simpa using err
  · simpa using werr
  · ext i hi
    simp [show 4 + i < 64 by omega]
  · ext i hi
    simp [show 8 + i < 64 by omega]

end Sys2Proof.Machine

namespace Sys2Proof.Proofs

open Sys2Proof.Machine Sys2Proof.Claims

/-- Settles O40: the read answers the register's word, and STATUS is read back by where its fields stand. -/
theorem registerReadsReturnTheirFields : Obligations.RegisterReadsReturnTheirFields := by
  unfold Obligations.RegisterReadsReturnTheirFields
  intro s master a rest turn place aligned notIbuf notObuf idle
  rw [InIbuf, ← inIbuf_iff] at notIbuf
  rw [InObuf, ← inObuf_iff] at notObuf
  have read : step s = .next ((s.setScript rest).respond master (wordData (s.registerWord (targetOf a)))) := by
    rw [step_read turn place, hostRead_register master aligned notIbuf notObuf (by simpa using idle),
      State.registerWord_setScript]
  refine ⟨_, (s.registerWord (targetOf a)).setWidth 64, read, ⟨rfl, rfl, rfl, rfl, rfl, fun _ => rfl, rfl⟩,
    ⟨rfl, rfl, rfl⟩, rfl, by rintro rfl; rfl, ?ctrl, ?status, by rintro rfl; rfl, by rintro rfl; rfl,
    by rintro rfl; rfl, by rintro rfl; rfl, ?reserved⟩
  case ctrl =>
    rintro rfl
    exact s.ctrlWord_setWidth
  case status =>
    rintro rfl
    exact s.status.word_setWidth_fields
  case reserved =>
    intro past
    rw [targetOf_reserved past notIbuf notObuf]
    rfl

end Sys2Proof.Proofs
end

section
/-! PROOFS. What the flags and the pending command are after a step: IRQ, WERR, and the fields that no host access
changes while BUSY (R25, R32, R36, R53, R93). -/

namespace Sys2Proof.Machine

/-! ### Writes -/

/-- A write to CMD while BUSY = 0 is an acceptance (R47, R91). -/
theorem writeTarget_cmd {s : State} (idle : s.status.busy = false) (w : Nat) (v : F64) :
    writeTarget 0x00C w v s = s.accept (lowHalf v) := by
  have target : targetOf 0x00C = .cmd := rfl
  simp [writeTarget, target, writeCmd, idle]

/-- A write to CMD or IBUF while BUSY is dropped (R47, R107). -/
theorem writeTarget_busy {s : State} (busy : s.status.busy = true) {a : Nat} (place : a = 0x00C ∨ inIbuf a = true)
    (w : Nat) (v : F64) : writeTarget a w v s = s.setStatus s.status.writeDropped := by
  rcases place with rfl | place
  · have target : targetOf 0x00C = .cmd := rfl
    simp only [writeTarget, target, writeCmd, busy, if_true]
  · simp only [writeTarget, targetOf_of_ibuf place, writeIbuf, busy, if_true]

/-! ### IRQ -/

/-- IRQ is high exactly while IE and DONE or ERR are (R32). -/
theorem State.irq_iff {s : State} : s.irq = true ↔ s.ie = true ∧ (s.status.done = true ∨ s.status.err = true) := by
  simp [State.irq]

/-- Without IE there is no interrupt (R32). -/
theorem State.irq_of_not_ie {s : State} (ie : s.ie = false) : s.irq = false := by
  simp [State.irq, ie]

/-- Without DONE and ERR there is no interrupt (R32). -/
theorem State.irq_of_flags_clear {s : State} (done : s.status.done = false) (err : s.status.err = false) :
    s.irq = false := by
  simp [State.irq, done, err]

/-! ### WERR -/

/-- What a step does to WERR: it keeps it, or a reset or a STATUS write clears it, or a dropped write sets it (R25). -/
inductive WerrMoved (s t : State) : Prop where
  | kept (same : t.status.werr = s.status.werr)
  | reset (rest : List Event) (turn : s.script = .reset :: rest) (clear : t.status.werr = false)
  | cleared (master : Nat) (v : F64) (rest : List Event) (turn : s.script = .write master 0x008 4 v :: rest)
      (bit : t.status.werr = (s.status.werr && !v.getLsbD 3))
  | dropped (master a w : Nat) (v : F64) (rest : List Event) (turn : s.script = .write master a w v :: rest)
      (busy : s.status.busy = true) (place : a = 0x00C ∨ inIbuf a = true) (raised : t.status.werr = true)

/-- STATUS takes 32-bit accesses only (R40). -/
theorem width_of_status {w : Nat} (taken : admitted 0x008 w = true) : w = 4 := by
  rw [admitted_iff] at taken
  omega

theorem Moved.werrMoved {s t : State} (moved : Moved s t) : WerrMoved s t := by
  cases moved with
  | idle t empty busy same => exact .kept (same ▸ rfl)
  | last t empty busy ends =>
    obtain ⟨-, -, -, -, -, werr⟩ := ends.frame
    exact .kept werr
  | skip rest turn busy => exact .kept rfl
  | complete rest t turn busy ends =>
    obtain ⟨-, -, -, -, -, werr⟩ := ends.frame
    exact .kept werr
  | reset rest turn => exact .reset rest turn rfl
  | read master a w rest t turn place ends =>
    obtain ⟨-, status, -⟩ := ends.frame
    exact .kept (congrArg Status.werr status)
  | refusedWrite master a w v rest turn place refused => exact .kept rfl
  | write master a w v rest t turn place taken ends =>
    cases ends with
    | ignored => exact .kept rfl
    | control => exact .kept rfl
    | cleared place =>
      subst place
      obtain rfl := width_of_status taken
      exact .cleared master v rest turn (congrArg (s.status.werr && !·) (lowHalf_getLsbD v (by decide)))
    | dropped busy place => exact .dropped master a w v rest turn busy place rfl
    | stored busy place => exact .kept rfl
    | accepted busy place => exact .kept rfl

/-! ### The pending command -/

/-- A write while BUSY keeps BUSY, CMD, the snapshot and the buffers: only a flag or IE can change (R107). -/
theorem WriteEnds.frame_of_busy {a w : Nat} {v : F64} {s t : State} (ends : WriteEnds a w v s t)
    (busy : s.status.busy = true) :
    t.status.busy = true ∧ t.cmd = s.cmd ∧ t.snap = s.snap ∧ t.mem = s.mem := by
  cases ends with
  | ignored => exact ⟨busy, rfl, rfl, rfl⟩
  | control => exact ⟨busy, rfl, rfl, rfl⟩
  | cleared place => exact ⟨busy, rfl, rfl, rfl⟩
  | dropped _ place => exact ⟨busy, rfl, rfl, rfl⟩
  | stored idle place => simp [busy] at idle
  | accepted idle place => simp [busy] at idle

end Sys2Proof.Machine

namespace Sys2Proof.Proofs

open Sys2Proof.Machine Sys2Proof.Claims

/-- Settles O45: each of the four events leaves IE, or both DONE and ERR, at 0. -/
theorem irqIsALevelOfTheFlags : Obligations.IrqIsALevelOfTheFlags := by
  unfold Obligations.IrqIsALevelOfTheFlags
  refine ⟨fun s => State.irq_iff, rfl, fun s master v rest event => ?_⟩
  rcases event with ⟨turn, done, err⟩ | ⟨turn, ie⟩ | ⟨turn, idle⟩ | turn
  · refine ⟨_, step_write turn (by decide) rfl, State.irq_of_flags_clear ?_ ?_⟩
    · change (s.status.done && !(lowHalf v).getLsbD 1) = false
      rw [lowHalf_getLsbD v (by decide), done, Bool.not_true, Bool.and_false]
    · change (s.status.err && !(lowHalf v).getLsbD 2) = false
      rw [lowHalf_getLsbD v (by decide), err, Bool.not_true, Bool.and_false]
  · refine ⟨_, step_write turn (by decide) rfl, State.irq_of_not_ie ?_⟩
    change (lowHalf v).getLsbD 0 = false
    rw [lowHalf_getLsbD v (by decide), ie]
  · refine ⟨_, step_write turn (by decide) rfl, ?_⟩
    rw [writeTarget_cmd (s := s.setScript rest) idle]
    exact State.irq_of_flags_clear rfl rfl
  · exact ⟨_, step_reset turn, State.irq_of_not_ie rfl⟩

/-- Settles O52: a step either keeps WERR or is one of the three events that the statement names. -/
theorem werrIsSticky : Obligations.WerrIsSticky := by
  unfold Obligations.WerrIsSticky
  refine ⟨fun s t turn high low => ?_, fun s t turn low high => ?_, fun s master a w v rest turn busy taken place => ?_⟩
  · cases (step_moved turn).werrMoved with
    | kept same => simp [same, high] at low
    | reset rest turn _ => exact .inr ⟨rest, turn⟩
    | cleared master v rest turn bit => exact .inl ⟨master, v, rest, turn, by simpa [high, low] using bit⟩
    | dropped _ _ _ _ _ _ _ _ raised => simp [raised] at low
  · cases (step_moved turn).werrMoved with
    | kept same => simp [same, low] at high
    | reset _ _ clear => simp [clear] at high
    | cleared _ _ _ _ bit => simp [bit, low] at high
    | dropped master a w v rest turn busy place _ =>
      exact ⟨busy, master, a, w, v, rest, turn, place.imp_right inIbuf_iff.1⟩
  · rw [InIbuf, ← inIbuf_iff] at place
    have inside : a < 0x4000 := by
      rw [inIbuf_iff] at place
      omega
    refine ⟨_, step_write turn inside (admitted_iff.2 taken), ?_⟩
    rw [writeTarget_busy (s := s.setScript rest) busy place]
    rfl

/-- Settles O53: a read changes no device field, and a write while BUSY changes no more than a flag or IE. -/
theorem hostAccessesLeaveThePendingCommand : Obligations.HostAccessesLeaveThePendingCommand := by
  unfold Obligations.HostAccessesLeaveThePendingCommand
  intro s t e rest script access busy turn
  cases e with
  | read master a w =>
    rw [step_read script access] at turn
    cases turn
    obtain ⟨-, status, cmd, resultLo, resultHi, mem, snap, -⟩ := (hostRead_ends master a w (s.setScript rest)).frame
    rw [status, cmd, resultLo, resultHi, mem, snap]
    exact ⟨busy, rfl, rfl, fun _ => rfl, rfl, rfl, rfl⟩
  | write master a w v =>
    cases taken : admitted a w with
    | false =>
      rw [step_refusedWrite script access taken] at turn
      cases turn
      exact ⟨busy, rfl, rfl, fun _ => rfl, rfl, rfl, rfl⟩
    | true =>
      rw [step_write script access taken] at turn
      cases turn
      have ends := writeTarget_ends a w v (s.setScript rest)
      obtain ⟨busy', cmd, snap, mem⟩ := ends.frame_of_busy busy
      obtain ⟨resultLo, resultHi, -, -, -, -, olen⟩ := ends.frame
      exact ⟨busy', cmd, snap, fun b => congrArg (Memory.byte · b) mem, resultLo, resultHi, olen⟩
  | reset => exact access.elim
  | engine => exact access.elim

end Sys2Proof.Proofs
end

section
/-! PROOFS. What an admitted write does, by its target (R47). -/

namespace Sys2Proof.Machine

/-- An IBUF write while BUSY = 0 (R47). -/
theorem writeTarget_ibuf {s : State} (idle : s.status.busy = false) {a : Nat} (place : inIbuf a = true) (w : Nat)
    (v : F64) : writeTarget a w v s = s.setMem (s.mem.store a (storeBytes w v)) := by
  simp [writeTarget, targetOf_of_ibuf place, writeIbuf, idle]

theorem targetOf_ctrl {a : Nat} (h : targetOf a = .ctrl) : a = 0x004 := by
  grind [targetOf]

/-- A write to anything but IBUF, CTRL, STATUS and CMD is ignored (R47). -/
theorem writeTarget_ignored {a : Nat} (notIbuf : ¬ inIbuf a = true) (notCtrl : a ≠ 0x004) (notStatus : a ≠ 0x008)
    (notCmd : a ≠ 0x00C) (w : Nat) (v : F64) (s : State) : writeTarget a w v s = s := by
  cases target : targetOf a with
  | ibuf => exact absurd (targetOf_ibuf target) notIbuf
  | ctrl => exact absurd (targetOf_ctrl target) notCtrl
  | status => exact absurd (targetOf_status target) notStatus
  | cmd => exact absurd (targetOf_cmd target) notCmd
  | _ => simp only [writeTarget, target]

/-- The bytes of an admitted store (R39, R42). -/
theorem Memory.byte_store_storeBytes {a w : Nat} (taken : admitted a w = true) (m : Memory) (v : F64) {j : Nat}
    (hj : j < w) : (m.store a (storeBytes w v)).byte (a + j) = some (v.extractLsb' (8 * j) 8) := by
  rw [Memory.byte_store, storeBytes_length taken, if_pos (by omega), Nat.add_sub_cancel_left,
    storeBytes_getElem taken v hj]

/-- Where the source buffer of a command word begins (R36, R45). -/
theorem bufferBase_sourceOf (w : Word) : bufferBase (sourceOf w) = if w.getLsbD 20 then 0x2000 else 0x1000 := by
  unfold sourceOf
  cases w.getLsbD 20 <;> rfl

end Sys2Proof.Machine

namespace Sys2Proof.Claims

open Sys2Proof.Machine

/-! The next lemmas say what the device is after a write's turn: the effect, between taking the turn out of the script
and the answer. -/

theorem stored_turn {a w : Nat} (taken : admitted a w = true) (v : F64) (s : State) (rest : List Event) (master : Nat) :
    Stored a w v s (((s.setScript rest).setMem (s.mem.store a (storeBytes w v))).respond master .written) where
  bytes _ hj := Memory.byte_store_storeBytes taken s.mem v hj
  others _ outside := Memory.byte_store_outside s.mem (by rwa [storeBytes_length taken v])
  ie := rfl
  status := rfl
  cmd := rfl
  resultLo := rfl
  resultHi := rfl
  snap := rfl

theorem dropped_turn (s : State) (rest : List Event) (master : Nat) :
    Dropped s (((s.setScript rest).setStatus s.status.writeDropped).respond master .written) :=
  ⟨rfl, rfl, rfl, rfl, rfl, fun _ => rfl, rfl⟩

theorem controlWritten_turn (v : F64) (s : State) (rest : List Event) (master : Nat) :
    ControlWritten v s (((s.setScript rest).setIe ((lowHalf v).getLsbD 0)).respond master .written) :=
  ⟨lowHalf_getLsbD v (by decide), rfl, rfl, rfl, rfl, fun _ => rfl, rfl⟩

theorem clearedBy_turn (v : F64) (s : State) (rest : List Event) (master : Nat) :
    ClearedBy v s ((acknowledge (lowHalf v) (s.setScript rest)).respond master .written) where
  done := congrArg (s.status.done && !·) (lowHalf_getLsbD v (by decide))
  err := congrArg (s.status.err && !·) (lowHalf_getLsbD v (by decide))
  errcode := by
    have bit : (lowHalf v).getLsbD 2 = v.getLsbD 2 := lowHalf_getLsbD v (by decide)
    rw [← bit]
    rfl
  werr := congrArg (s.status.werr && !·) (lowHalf_getLsbD v (by decide))
  busy := rfl
  olen := rfl
  ie := rfl
  cmd := rfl
  resultLo := rfl
  resultHi := rfl
  mem _ := rfl
  snap := rfl

theorem accepted_turn (w : Word) (s : State) (rest : List Event) (master : Nat) :
    Accepted w s (((s.setScript rest).accept w).respond master .written) where
  cmd := rfl
  snap a := by
    rw [← bufferBase_sourceOf]
    exact Memory.byte_slice s.mem (bufferBase (sourceOf w)) 0x800 a
  done := rfl
  err := rfl
  errcode := rfl
  busy := rfl
  werr := rfl
  olen := rfl
  ie := rfl
  resultLo := rfl
  resultHi := rfl
  mem _ := rfl

/-- Whatever an admitted write does, it is answered as taken and records no fault (R47). -/
theorem answeredWith_turn (a w : Nat) (v : F64) (s : State) (rest : List Event) (master : Nat) :
    AnsweredWith master .written rest s ((writeTarget a w v (s.setScript rest)).respond master .written) := by
  obtain ⟨-, -, faults, script, responses, -⟩ := (writeTarget_ends a w v (s.setScript rest)).frame
  exact ⟨congrArg (List.cons _) responses, script, faults⟩

end Sys2Proof.Claims

namespace Sys2Proof.Proofs

open Sys2Proof.Machine Sys2Proof.Claims

/-- Settles O36: one clause for each row of R47's table, by the effect of that row. -/
theorem hostWritesActByTarget : Obligations.HostWritesActByTarget := by
  unfold Obligations.HostWritesActByTarget
  intro s master a w v rest turn inside admits
  have taken : admitted a w = true := admitted_iff.2 admits
  simp only [InIbuf, ← inIbuf_iff]
  refine ⟨_, step_write turn inside taken, answeredWith_turn a w v s rest master, ?_, ?_, ?_, ?_, ?_, ?_, ?_⟩
  · intro place idle
    rw [writeTarget_ibuf (s := s.setScript rest) idle place]
    exact stored_turn taken v s rest master
  · intro place busy
    rw [writeTarget_busy (s := s.setScript rest) busy (.inr place)]
    exact dropped_turn s rest master
  · rintro rfl
    exact controlWritten_turn v s rest master
  · rintro rfl
    exact clearedBy_turn v s rest master
  · rintro rfl idle
    rw [writeTarget_cmd (s := s.setScript rest) idle]
    exact accepted_turn (lowHalf v) s rest master
  · rintro rfl busy
    rw [writeTarget_busy (s := s.setScript rest) busy (.inl rfl)]
    exact dropped_turn s rest master
  · intro notIbuf notCtrl notStatus notCmd
    rw [writeTarget_ignored notIbuf notCtrl notStatus notCmd]
    exact ⟨rfl, rfl, rfl, rfl, rfl, fun _ => rfl, rfl⟩

end Sys2Proof.Proofs
end

section
/-! PROOFS. What a host read does, by what it addresses, and where an access has no effect on the device (R41, R42, R44,
R45, R46). -/

namespace Sys2Proof.Machine

/-! ### Refused accesses, and accesses outside the window -/

/-- A read's turn outside the window (R45). -/
theorem step_readOutside {s : State} {master a w : Nat} {rest : List Event}
    (turn : s.script = .read master a w :: rest) (outside : Config.windowSize ≤ a) :
    step s = .fault .outsideWindow := by
  simp only [step, nextTurn, turn, runEvent, hostAccess, if_pos outside]

/-- A write's turn outside the window (R45). -/
theorem step_writeOutside {s : State} {master a w : Nat} {v : F64} {rest : List Event}
    (turn : s.script = .write master a w v :: rest) (outside : Config.windowSize ≤ a) :
    step s = .fault .outsideWindow := by
  simp only [step, nextTurn, turn, runEvent, hostAccess, if_pos outside]

/-- A read that takes a next state is in the window (R45). -/
theorem inWindow_of_step_read {s t : State} {master a w : Nat} {rest : List Event}
    (turn : s.script = .read master a w :: rest) (next : step s = .next t) : a < Config.windowSize := by
  by_contra outside
  rw [step_readOutside turn (Nat.not_lt.1 outside)] at next
  cases next

/-- A read that R40 does not admit (R41). -/
theorem hostRead_refused {a w : Nat} (refused : admitted a w = false) (master : Nat) (s : State) :
    hostRead master a w s = refuseAccess master s := by
  simp only [hostRead, refused, Bool.not_false, if_true]

/-! ### Recorded faults -/

/-- A model fault is recorded once (R90). -/
@[simp] theorem FaultSet.record_record (fs : FaultSet) (f : ModelFault) : (fs.record f).record f = fs.record f := by
  cases f <;> rfl

/-- Recording a model fault clears none (R90). -/
theorem FaultSet.has_record_of_has {fs : FaultSet} {f : ModelFault} (h : fs.has f = true) (g : ModelFault) :
    (fs.record g).has f = true := by
  rw [FaultSet.has_record, h, Bool.true_or]

/-- A read clears no model fault (R90). -/
theorem ReadEnds.keeps_fault {s t : State} {master : Nat} (ends : ReadEnds s master t) {f : ModelFault}
    (h : s.faults.has f = true) : t.faults.has f = true := by
  cases ends with
  | refused => exact FaultSet.has_record_of_has h _
  | answered v => exact h
  | drawn w => exact h
  | uninit => exact FaultSet.has_record_of_has h _
  | uninitDrawn w => exact FaultSet.has_record_of_has h _

/-- A completion clears no model fault (R90). -/
theorem Ends.keeps_fault {s t : State} (ends : Ends s t) {f : ModelFault} (h : s.faults.has f = true) :
    t.faults.has f = true := by
  cases ends with
  | error e => exact h
  | fault => exact FaultSet.has_record_of_has h _
  | vector l xs size length => exact h
  | scalar v => exact h

/-- No step clears a model fault (R90, R103). -/
theorem step_keeps_fault {s t : State} (next : step s = .next t) {f : ModelFault} (h : s.faults.has f = true) :
    t.faults.has f = true := by
  cases step_moved next with
  | idle _ empty busy same => exact same ▸ h
  | last _ empty busy ends => exact ends.keeps_fault h
  | skip rest turn busy => exact h
  | complete rest _ turn busy ends => exact ends.keeps_fault (s := s.setScript rest) h
  | reset rest turn => exact h
  | read master a w rest _ turn place ends => exact ends.keeps_fault (s := s.setScript rest) h
  | refusedWrite master a w v rest turn place refused => exact FaultSet.has_record_of_has h _
  | write master a w v rest t turn place taken ends =>
    obtain ⟨-, -, faults, -⟩ := ends.frame
    exact (congrArg (FaultSet.has · f) faults).trans h

/-! ### The bits of a buffer read -/

/-- The zero-extended half has the half's bytes. -/
theorem setWidth_byte (x : Word) {j : Nat} (h : j < 4) :
    (x.setWidth 64).extractLsb' (8 * j) 8 = x.extractLsb' (8 * j) 8 := by
  ext i hi
  simp [show 8 * j + i < 64 by omega]

/-- A buffer read has no value exactly where one of the addressed bytes has none (R34). -/
theorem bufferBits_eq_none {a w : Nat} (taken : admitted a w = true) {m : Memory} :
    bufferBits m a w = none ↔ ∃ j < w, m.byte (a + j) = none := by
  rcases admitted_iff.1 taken with ⟨rfl, -⟩ | ⟨rfl, -⟩
  · simp [bufferBits, Memory.half_eq_none]
  · simp [bufferBits, Memory.word_eq_none]

/-- The bytes of a buffer read that has a value, the least significant first (R39). -/
theorem bufferBits_byte {a w : Nat} (taken : admitted a w = true) {m : Memory} {v : F64}
    (h : bufferBits m a w = some v) {j : Nat} (hj : j < w) : m.byte (a + j) = some (v.extractLsb' (8 * j) 8) := by
  rcases admitted_iff.1 taken with ⟨rfl, -⟩ | ⟨rfl, -⟩
  · obtain ⟨x, half, rfl⟩ := Option.map_eq_some_iff.1 h
    rw [Memory.half_byte half hj, setWidth_byte x hj]
  · exact Memory.word_byte h hj

/-- A 32-bit buffer read is zero-extended (R46). -/
theorem bufferBits_high {m : Memory} {a : Nat} {v : F64} (h : bufferBits m a 4 = some v) :
    v.extractLsb' 32 32 = 0#32 := by
  obtain ⟨x, -, rfl⟩ := Option.map_eq_some_iff.1 h
  ext i hi
  simp

/-- A buffer read where every addressed byte is marked (R46). -/
theorem readBuffer_of_some {s : State} {a w : Nat} {v : F64} (bits : bufferBits s.mem a w = some v) (master : Nat) :
    readBuffer master a w s = s.respond master (.data v) := by
  simp only [readBuffer, bits]

/-- A buffer read where a mark is clear (R34, R46). -/
theorem readBuffer_of_none {s : State} {a w : Nat} (bits : bufferBits s.mem a w = none) (master : Nat) :
    readBuffer master a w s = (s.recordFault .uninitRead).respond master .noValue := by
  simp only [readBuffer, bits]

/-! ### A read by what it addresses -/

/-- What an access of the window addresses: nothing that it may, a buffer, or a 32-bit place outside the buffers. -/
inductive Addressed (a w : Nat) : Prop where
  | refused (refused : admitted a w = false)
  | buffer (taken : admitted a w = true) (place : inIbuf a = true ∨ inObuf a = true)
  | register (width : w = 4) (aligned : a % 4 = 0) (notIbuf : ¬ inIbuf a = true) (notObuf : ¬ inObuf a = true)

theorem addressed (a w : Nat) : Addressed a w := by
  cases taken : admitted a w with
  | false => exact .refused taken
  | true =>
    by_cases place : inIbuf a = true ∨ inObuf a = true
    · exact .buffer taken place
    · obtain ⟨notIbuf, notObuf⟩ := not_or.1 place
      rcases admitted_iff.1 taken with ⟨width, aligned⟩ | ⟨-, -, wide⟩
      · exact .register width aligned notIbuf notObuf
      · rw [inIbuf_iff, inObuf_iff] at place
        exact absurd wide place

/-- A read of IBUF, or of OBUF while BUSY = 0 (R46). -/
theorem hostRead_buffer {s : State} {a w : Nat} (taken : admitted a w = true)
    (place : inIbuf a = true ∨ inObuf a = true ∧ s.status.busy = false) (master : Nat) :
    hostRead master a w s = readBuffer master a w s := by
  rcases place with place | ⟨place, idle⟩
  · simp [hostRead, taken, targetOf_of_ibuf place]
  · simp [hostRead, taken, targetOf_of_obuf place, readObuf, idle]

/-- A read of OBUF while BUSY = 1 (R108). -/
theorem hostRead_obuf_busy {s : State} {a w : Nat} (taken : admitted a w = true) (place : inObuf a = true)
    (busy : s.status.busy = true) (master : Nat) :
    hostRead master a w s = readUnspecified master w s ∨
      hostRead master a w s = (readUnspecified master w s).recordFault .uninitRead := by
  simp only [hostRead, taken, Bool.not_true, Bool.false_eq_true, if_false, targetOf_of_obuf place, readObuf, busy,
    if_true]
  split
  · exact .inl rfl
  · exact .inr rfl

/-- A read of the RESULT pair while BUSY = 1 (R108). -/
theorem hostRead_result_busy {s : State} {a : Nat} (place : a = 0x010 ∨ a = 0x014) (busy : s.status.busy = true)
    (master : Nat) : hostRead master a 4 s = readUnspecified master 4 s := by
  have read (v : Word) : readResult master v s = readUnspecified master 4 s := if_pos busy
  rcases place with rfl | rfl
  · exact read s.resultLo
  · exact read s.resultHi

/-! ### Answers -/

/-- The access is answered with no bus error, and none is recorded (R40, R46). -/
def Served (master : Nat) (s t : State) : Prop :=
  ∃ x, t.responses = ⟨master, x⟩ :: s.responses ∧ x ≠ .busError ∧ t.faults.busError = s.faults.busError

theorem served_readBuffer (master a w : Nat) (s : State) : Served master s (readBuffer master a w s) := by
  cases bits : bufferBits s.mem a w with
  | some v => exact readBuffer_of_some bits master ▸ ⟨.data v, rfl, nofun, rfl⟩
  | none => exact readBuffer_of_none bits master ▸ ⟨.noValue, rfl, nofun, rfl⟩

theorem served_readUnspecified (master w : Nat) (s : State) : Served master s (readUnspecified master w s) := by
  refine ⟨unspecified s w, rfl, ?_, rfl⟩
  unfold unspecified
  split <;> exact nofun

/-- UninitRead is no bus error (R90). -/
theorem Served.recordUninitRead {master : Nat} {s t : State} (h : Served master s t) :
    Served master s (t.recordFault .uninitRead) := h

/-- Every admitted read is served, BUSY or not (R46, R108). -/
theorem served_hostRead {a w : Nat} (taken : admitted a w = true) (master : Nat) (s : State) :
    Served master s (hostRead master a w s) := by
  cases addressed a w with
  | refused refused => simp [taken] at refused
  | buffer _ place =>
    by_cases quiet : inIbuf a = true ∨ inObuf a = true ∧ s.status.busy = false
    · rw [hostRead_buffer taken quiet]
      exact served_readBuffer master a w s
    · have busyObuf : inObuf a = true ∧ s.status.busy = true := by grind
      rcases hostRead_obuf_busy taken busyObuf.1 busyObuf.2 master with read | read
      · exact read ▸ served_readUnspecified master w s
      · exact read ▸ (served_readUnspecified master w s).recordUninitRead
  | register width aligned notIbuf notObuf =>
    subst width
    by_cases idle : a = 0x010 ∨ a = 0x014 → s.status.busy = false
    · rw [hostRead_register master aligned notIbuf notObuf idle]
      exact ⟨_, rfl, nofun, rfl⟩
    · obtain ⟨place, busy⟩ := Classical.not_imp.1 idle
      rw [hostRead_result_busy place (by simpa using busy)]
      exact served_readUnspecified master 4 s

/-! ### A read done again -/

/-- After `u` the newest answer and the recorded faults are those after `t`. -/
def AnsweredAgain (t u : State) : Prop := u.responses.head? = t.responses.head? ∧ u.faults = t.faults

/-- A buffer read looks at the buffers alone, so it is answered the same again (R44). -/
theorem readBuffer_again (master a w : Nat) (s : State) (again : List Event) :
    AnsweredAgain (readBuffer master a w s) (readBuffer master a w ((readBuffer master a w s).setScript again)) := by
  cases bits : bufferBits s.mem a w with
  | some v =>
    rw [readBuffer_of_some bits, readBuffer_of_some (by exact bits)]
    exact ⟨rfl, rfl⟩
  | none =>
    rw [readBuffer_of_none bits, readBuffer_of_none (by exact bits)]
    exact ⟨rfl, FaultSet.record_record s.faults .uninitRead⟩

/-- A read that BUSY does not make unspecified is answered the same again and records nothing new (R44). -/
theorem hostRead_again {s : State} {a : Nat}
    (quiet : s.status.busy = false ∨ ¬ (inObuf a = true ∨ a = 0x010 ∨ a = 0x014)) (master w : Nat)
    (again : List Event) :
    AnsweredAgain (hostRead master a w s) (hostRead master a w ((hostRead master a w s).setScript again)) := by
  cases addressed a w with
  | refused refused => simp [AnsweredAgain, hostRead_refused refused, refuseAccess]
  | buffer taken place =>
    have quietPlace : inIbuf a = true ∨ inObuf a = true ∧ s.status.busy = false := by grind
    obtain ⟨-, status, -⟩ := (hostRead_ends master a w s).frame
    rw [hostRead_buffer taken quietPlace] at status ⊢
    rw [hostRead_buffer taken (by simpa [status] using quietPlace)]
    exact readBuffer_again master a w s again
  | register width aligned notIbuf notObuf =>
    subst width
    have idle : a = 0x010 ∨ a = 0x014 → s.status.busy = false := by grind
    have word : (s.respond master (wordData (s.registerWord (targetOf a)))).registerWord (targetOf a) =
        s.registerWord (targetOf a) := by
      cases targetOf a <;> rfl
    rw [hostRead_register master aligned notIbuf notObuf idle,
      hostRead_register master aligned notIbuf notObuf (by exact idle), State.registerWord_setScript, word]
    exact ⟨rfl, rfl⟩

/-! ### Stores of one width and reads of the other -/

/-- A 32-bit store moves the low half of its value (R39). -/
theorem storeBytes_half (x : Word) : storeBytes 4 (x.setWidth 64) = halfBytes x := by
  have low : lowHalf (x.setWidth 64) = x := by
    ext i hi
    simp [lowHalf, hi, show i < 64 by omega]
  simp [storeBytes, low]

/-- Both halves stored, the low one first, are the word (R42). -/
theorem Memory.word_store_low_high (m : Memory) (a : Nat) (v : F64) :
    ((m.store a (halfBytes (lowHalf v))).store (a + 4) (halfBytes (highHalf v))).word a = some v :=
  Memory.word_eq_some.2 ⟨by rw [Memory.half_store_outside _ (.inl le_rfl), Memory.half_store_self],
    Memory.half_store_self _ _ _⟩

/-- Both halves stored, the high one first, are the word (R42). -/
theorem Memory.word_store_high_low (m : Memory) (a : Nat) (v : F64) :
    ((m.store (a + 4) (halfBytes (highHalf v))).store a (halfBytes (lowHalf v))).word a = some v :=
  Memory.word_eq_some.2 ⟨Memory.half_store_self _ _ _,
    by rw [Memory.half_store_outside _ (.inr (by simp)), Memory.half_store_self]⟩

end Sys2Proof.Machine

namespace Sys2Proof.Claims

open Sys2Proof.Machine

/-- A read changes nothing of the device (R44). -/
theorem sameDevice_of_readEnds {s t : State} {master : Nat} {rest : List Event}
    (ends : ReadEnds (s.setScript rest) master t) : SameDevice s t := by
  obtain ⟨ie, status, cmd, resultLo, resultHi, mem, snap, -⟩ := ends.frame
  exact ⟨ie, status, cmd, resultLo, resultHi, fun a => congrArg (Memory.byte · a) mem, snap⟩

end Sys2Proof.Claims

namespace Sys2Proof.Proofs

open Sys2Proof.Machine Sys2Proof.Claims

/-- Settles O37: both kinds of access come to `refuseAccess`, and no step clears the fault that it records. -/
theorem refusedAccessChangesNothing : Obligations.RefusedAccessChangesNothing := by
  unfold Obligations.RefusedAccessChangesNothing
  intro s master a w rest place notAdmitted access
  have refused : admitted a w = false := Bool.eq_false_iff.2 fun taken => notAdmitted (admitted_iff.1 taken)
  have next : step s = .next (refuseAccess master (s.setScript rest)) := by
    rcases access with turn | ⟨v, turn⟩
    · rw [step_read turn place, hostRead_refused refused]
    · exact step_refusedWrite turn place refused
  exact ⟨_, next, ⟨rfl, rfl, rfl, rfl, rfl, fun _ => rfl, rfl⟩, rfl, rfl, rfl, rfl, rfl, rfl,
    fun u after => step_keeps_fault (f := .busError) after rfl⟩

/-- Settles O38: a read is served by what it addresses, and a write is always answered as taken. -/
theorem admittedAccessIsAnswered : Obligations.AdmittedAccessIsAnswered := by
  unfold Obligations.AdmittedAccessIsAnswered
  intro s master a w rest place admits access
  have taken : admitted a w = true := admitted_iff.2 admits
  rcases access with turn | ⟨v, turn⟩
  · obtain ⟨x, responses, noError, faults⟩ := served_hostRead taken master (s.setScript rest)
    exact ⟨_, x, step_read turn place, responses, noError, faults⟩
  · have answered := answeredWith_turn a w v s rest master
    exact ⟨_, .written, step_write turn place taken, answered.responses, nofun, congrArg _ answered.faults⟩

/-- Settles O41: the buffer read has a value exactly where no addressed byte is unmarked, and its bytes are those. -/
theorem bufferReadsReturnTheMarkedBytes : Obligations.BufferReadsReturnTheMarkedBytes := by
  unfold Obligations.BufferReadsReturnTheMarkedBytes
  intro s master a w rest turn admits place
  have taken : admitted a w = true := admitted_iff.2 admits
  have inside : a < 0x4000 := by
    rw [InIbuf, InObuf] at place
    omega
  rw [InIbuf, InObuf, ← inIbuf_iff, ← inObuf_iff] at place
  have next : step s = .next (readBuffer master a w (s.setScript rest)) := by
    rw [step_read turn inside, hostRead_buffer (s := s.setScript rest) taken place]
  have unmarked := bufferBits_eq_none taken (m := s.mem)
  refine ⟨_, next, sameDevice_of_readEnds (readBuffer_ends master a w (s.setScript rest)), ?_⟩
  cases bits : bufferBits s.mem a w with
  | some v =>
    rw [readBuffer_of_some (s := s.setScript rest) bits]
    refine ⟨rfl, rfl, fun _ => ⟨rfl, v, rfl, fun j hj => bufferBits_byte taken bits hj, ?_⟩, fun clear => ?_⟩
    · rintro rfl
      exact bufferBits_high bits
    · simp [unmarked.2 clear] at bits
  | none =>
    rw [readBuffer_of_none (s := s.setScript rest) bits]
    refine ⟨rfl, rfl, fun marked => ?_, fun _ => ⟨rfl, rfl⟩⟩
    obtain ⟨j, hj, clear⟩ := unmarked.1 bits
    exact absurd (marked j hj) (by simp [clear])

/-- Settles O43: the first read leaves all that the second one looks at. -/
theorem readsHaveNoSideEffect : Obligations.ReadsHaveNoSideEffect := by
  unfold Obligations.ReadsHaveNoSideEffect
  intro s t master a w rest turn next
  have place := inWindow_of_step_read turn next
  rw [step_read turn place] at next
  cases next
  refine ⟨sameDevice_of_readEnds (hostRead_ends master a w (s.setScript rest)), fun quiet again turn' => ?_⟩
  rw [InObuf, ← inObuf_iff] at quiet
  exact ⟨_, step_read turn' place, hostRead_again (s := s.setScript rest) quiet master w again⟩

/-- Settles O44: a word is its halves, and a store of one half leaves the other. -/
theorem mixedWidthsGiveOneWord : Obligations.MixedWidthsGiveOneWord := by
  unfold Obligations.MixedWidthsGiveOneWord
  intro m k v a lo hi
  rw [storeBytes_half, storeBytes_half]
  exact ⟨m.word_store_low_high a v, m.word_store_high_low a v, m.word_store_self a v,
    fun x => ⟨m.half_store_outside (.inr le_rfl), m.half_store_outside (.inl le_rfl)⟩, Memory.word_eq_some⟩

/-- Settles O39: such an access, read or write, stops the model (assumption 5). -/
theorem accessOutsideTheWindowStops : Obligations.AccessOutsideTheWindowStops := by
  unfold Obligations.AccessOutsideTheWindowStops
  intro s master a w v rest outside access
  rcases access with turn | turn
  · exact step_readOutside turn outside
  · exact step_writeOutside turn outside

end Sys2Proof.Proofs
end

section
/-! PROOFS. The encoding of commands: the well-formed words by the rows of R61's table and by their fields, the
assembler, and the step that runs the decoded command (R56, R61, R62, R63). -/

namespace Sys2Proof

/-! ### A word and its fields -/

/-- A word put together from its own fields is the word (R56). -/
theorem word_fieldsOf (w : Word) : (fieldsOf w).word = w := by
  apply BitVec.eq_of_getLsbD_eq
  intro i hi
  simp only [fieldsOf, Fields.word, BitVec.getLsbD_append, BitVec.getLsbD_extractLsb']
  interval_cases i <;> simp

/-- Two words are the same exactly when their fields are (R56). -/
theorem Fields.word_inj {f g : Fields} : f.word = g.word ↔ f = g :=
  ⟨fun h => by rw [← Laws.fieldsOf_word f, h, Laws.fieldsOf_word], congrArg Fields.word⟩

/-! ### The rows of the table -/

/-- The OP of a row (R57). -/
def Opcode.code : Opcode → BitVec 4
  | .fwd => 1#4
  | .inv => 2#4
  | .down => 3#4
  | .up => 4#4
  | .rdrs => 5#4
  | .rdbf => 6#4

/-- The fields that a row does not use are 0 (R61). -/
def Opcode.UnusedZero : Opcode → Fields → Prop
  | .fwd, f | .inv, f => f.szb = 0#4 ∧ f.idx = 0#8
  | .down, f | .up, f => f.idx = 0#8
  | .rdrs, f => f.src = 0#1
  | .rdbf, f => f.szb = 0#4 ∧ f.src = 0#1

/-- The `match` column by its fields: OP, and 0 in every other. -/
theorem Opcode.pattern_eq (o : Opcode) : o.pattern = Fields.word ⟨o.code, 0#4, 0#4, 0#8, 0#1, 0#11⟩ := by
  cases o <;> decide

/-- A row accepts the words with its OP whose reserved bits and unused fields are 0 (R61). -/
theorem Opcode.accepts_iff_fields (o : Opcode) (w : Word) :
    o.accepts w = true ↔
      (fieldsOf w).op = o.code ∧ o.UnusedZero (fieldsOf w) ∧ (fieldsOf w).reserved = 0#11 := by
  have ones4 (x : BitVec 4) : x &&& 15#4 = x := BitVec.and_allOnes
  have ones8 (x : BitVec 8) : x &&& 255#8 = x := BitVec.and_allOnes
  have ones1 (x : BitVec 1) : x &&& 1#1 = x := BitVec.and_allOnes
  have ones11 (x : BitVec 11) : x &&& 2047#11 = x := BitVec.and_allOnes
  rw [Opcode.accepts, beq_iff_eq, ← word_fieldsOf w, Laws.RowMatch.and_mask, Opcode.pattern_eq, Fields.word_inj,
    Laws.fieldsOf_word, Fields.mk.injEq]
  cases o <;>
    simp only [Laws.RowMatch.maskFields, Opcode.code, Opcode.UnusedZero, ones4, ones8, ones1, ones11, BitVec.and_zero,
      true_and, and_assoc]

/-- No two rows have one OP (R57). -/
theorem Opcode.code_injective : Function.Injective Opcode.code := by
  intro o p
  cases o <;> cases p <;> decide

/-- No word satisfies two rows (R61). -/
theorem Opcode.eq_of_accepts {o p : Opcode} {w : Word} (ho : o.accepts w = true) (hp : p.accepts w = true) : o = p := by
  obtain ⟨opO, -⟩ := (o.accepts_iff_fields w).1 ho
  obtain ⟨opP, -⟩ := (p.accepts_iff_fields w).1 hp
  exact Opcode.code_injective (opO.symm.trans opP)

/-- The table has six rows (R61). -/
theorem Opcode.exists_iff {P : Opcode → Prop} :
    (∃ o, P o) ↔ P .fwd ∨ P .inv ∨ P .down ∨ P .up ∨ P .rdrs ∨ P .rdbf := by
  constructor
  · rintro ⟨o, h⟩
    cases o <;> simp [h]
  · rintro (h | h | h | h | h | h) <;> exact ⟨_, h⟩

/-- A word is well-formed exactly when some row accepts it (R61, R62). -/
theorem wellFormedWord_iff {w : Word} : wellFormedWord w = true ↔ ∃ o : Opcode, o.accepts w = true := by
  have found : wellFormedWord w = (Opcode.all.find? (fun o => o.accepts w)).isSome := by
    unfold wellFormedWord decode
    cases Opcode.all.find? (fun o => o.accepts w) <;> rfl
  have listed (o : Opcode) : o ∈ Opcode.all := by cases o <;> decide
  simp [found, List.find?_isSome, listed]

/-- A word is well-formed exactly when its reserved bits are 0 and its OP is a command's whose unused fields are 0
(R61). -/
theorem wellFormedWord_iff_fields {w : Word} :
    wellFormedWord w = true ↔
      (fieldsOf w).reserved = 0#11 ∧ ∃ o : Opcode, (fieldsOf w).op = o.code ∧ o.UnusedZero (fieldsOf w) := by
  simp only [wellFormedWord_iff, Opcode.accepts_iff_fields, ← and_assoc, exists_and_right]
  exact and_comm

end Sys2Proof

namespace Sys2Proof.Machine

/-- A 32-bit write carries its word in bits 31:0 (R38). -/
theorem lowHalf_setWidth (w : Word) : lowHalf (w.setWidth 64) = w := by
  apply BitVec.eq_of_getLsbD_eq
  intro i hi
  rw [lowHalf_getLsbD _ hi]
  simp [show i < 64 by omega]

/-- A word's CMD write while BUSY = 0 is its acceptance, whatever the word is (R61, R91). -/
theorem step_issue {s : State} (idle : s.status.busy = false) {master : Nat} {w : Word} {rest : List Event}
    (turn : s.script = issue master w :: rest) :
    step s = .next (((s.setScript rest).accept w).respond master .written) := by
  rw [step_write turn (by decide) (by decide), writeTarget_cmd (s := s.setScript rest) idle, lowHalf_setWidth]

/-- While BUSY the engine's turn runs the command that CMD decodes to (R62, R92). -/
theorem engineTurn_of_decode {s : State} {i : Instr} (busy : s.status.busy = true) (word : decode s.cmd = .ok i) :
    engineTurn s = exec i s := by
  simp only [engineTurn, busy, if_true, completion, word]

/-- With no turn listed the engine has it (R112). -/
theorem step_noTurn {s : State} (empty : s.script = []) : step s = engineTurn s := by
  simp only [step, nextTurn, empty]

/-- The engine's turn where the script lists it (R49). -/
theorem step_engine {s : State} {rest : List Event} (turn : s.script = .engine :: rest) :
    step s = engineTurn (s.setScript rest) := by
  simp only [step, nextTurn, turn, runEvent]

end Sys2Proof.Machine

namespace Sys2Proof.Claims

open Sys2Proof.Machine

/-- A word that is not well-formed has the code of IllegalCommand (R61, R89). -/
theorem wordCode_of_not_wellFormed {w : Word} (illegal : wellFormedWord w = false) : wordCode w = some 5#4 := by
  cases hword : decode w with
  | ok i => simp [wellFormedWord, hword] at illegal
  | error r => simp [wordCode, hword]

/-- The completion of a word that is not well-formed raises IllegalCommand (R61, R92). -/
theorem engineTurn_illegal {s : State} (busy : s.status.busy = true) (illegal : wellFormedWord s.cmd = false) :
    ∃ t, engineTurn s = .next t ∧ ErrorReported 5#4 s t := by
  obtain ⟨t, turn, ends⟩ := engineTurn_endsBy busy
  rw [wordCode_of_not_wellFormed illegal] at ends
  exact ⟨t, turn, ends.errorReported⟩

end Sys2Proof.Claims

namespace Sys2Proof.Proofs

open Sys2Proof.Machine Sys2Proof.Claims

/-- Settles O3: a row's mask and match are conditions on the fields, and the rows differ in OP. -/
theorem wellFormedWordsAreThoseOfOneRow : Obligations.WellFormedWordsAreThoseOfOneRow := by
  unfold Obligations.WellFormedWordsAreThoseOfOneRow
  intro w
  refine ⟨?_, ?_, fun o p => Opcode.eq_of_accepts, fun illegal => ⟨?_, ?_⟩⟩
  · rw [wellFormedWord_iff, Opcode.exists_iff]
    simp only [Opcode.accepts, Opcode.mask, Opcode.pattern, beq_iff_eq]
  · rw [wellFormedWord_iff_fields, Opcode.exists_iff]
    simp only [Opcode.code, Opcode.UnusedZero, or_and_right, or_assoc]
  · intro s idle master rest turn
    exact ⟨_, step_issue idle turn, accepted_turn w s rest master⟩
  · rintro s busy rfl
    exact engineTurn_illegal busy illegal

/-- Settles O5, by running the assembler on each line. -/
theorem assemblerGivesTheWorkedEncodings : Obligations.AssemblerGivesTheWorkedEncodings := by
  unfold Obligations.AssemblerGivesTheWorkedEncodings
  decide

/-- Settles O6: taking the turn out of the script leaves BUSY and CMD, so the engine's turn decodes the same word. -/
theorem stepRunsTheDecodedCommand : Obligations.StepRunsTheDecodedCommand := by
  unfold Obligations.StepRunsTheDecodedCommand
  intro s
  refine ⟨step_noTurn, fun _ => step_engine, fun i busy word => ⟨engineTurn_of_decode busy word, ?_, ?_⟩⟩
  · intro empty
    rw [step_noTurn empty, engineTurn_of_decode busy word]
  · intro rest turn
    rw [step_engine turn, engineTurn_of_decode (s := s.setScript rest) busy word]

end Sys2Proof.Proofs
end

section
/-! PROOFS. The table reads RDRS and RDBF past their checks (R67, R68, R92). -/

namespace Sys2Proof.Machine

/-- RDRS past its three checks reads the table (R67). -/
theorem exec_rdrs {a b i : Nat} (ha : a ≤ 8) (hb : b ≤ 8) (ratio : a = b + 3 ∨ b = a + 3) (index : i < 2 ^ min a b)
    (s : State) : exec (.rdrs a b i) s = .next (finishScalar (RS a b i) s) := by
  have sizes : ¬((!sizeSupported a || !sizeSupported b) = true) := by simp [sizeSupported_iff.2, ha, hb]
  simp only [exec, execRdrs]
  rw [if_neg sizes, if_neg (by simpa using ratioIsEight_iff.2 ratio), if_neg (Nat.not_le.2 index)]

/-- RDBF past its two checks reads the table (R68). -/
theorem exec_rdbf {a i : Nat} (readable : 2 ≤ a) (ha : a ≤ 8) (index : i < 2 ^ (a - 1)) (s : State) :
    exec (.rdbf a i) s = .next (finishScalar (BF a i) s) := by
  have size : ¬((decide (a < 2) || !sizeSupported a) = true) := by simp [sizeSupported_iff.2 ha, Nat.not_lt.2 readable]
  simp only [exec, execRdbf]
  rw [if_neg size, if_neg (Nat.not_le.2 index)]

end Sys2Proof.Machine

namespace Sys2Proof.Claims

open Sys2Proof.Machine

/-- `finishScalar` is the success branch of a table read (R92). -/
theorem scalarWritten_finishScalar (v : F64) (s : State) : ScalarWritten v s (finishScalar v s) :=
  ⟨rfl, rfl, rfl, rfl, rfl, rfl, rfl, rfl, fun _ => rfl, rfl, rfl, rfl, rfl, rfl, rfl, rfl⟩

end Sys2Proof.Claims

namespace Sys2Proof.Proofs

open Sys2Proof.Machine Sys2Proof.Claims

/-- Settles O14: past the three checks RDRS ends in `finishScalar`. -/
theorem rdrsCompletes : Obligations.RdrsCompletes := by
  unfold Obligations.RdrsCompletes
  intro s a b i ha hb ratio index
  exact ⟨_, exec_rdrs ha hb ratio index s, scalarWritten_finishScalar _ s⟩

/-- Settles O15: past the two checks RDBF ends in `finishScalar`. -/
theorem rdbfCompletes : Obligations.RdbfCompletes := by
  unfold Obligations.RdbfCompletes
  intro s a i readable ha index
  exact ⟨_, exec_rdbf readable ha index s, scalarWritten_finishScalar _ s⟩

end Sys2Proof.Proofs
end

section
/-! PROOFS. What the words of the two ROMs are like (R64 to R66, R69). A fact about the fixed words is evaluated: on a
whole ROM where it holds of every word, whatever its place, and row by row where it compares neighbours. -/

namespace Sys2Proof.Machine

open Sys2Proof.Claims (one)

/-! ### Every word of a ROM -/

/-- A finite number above zero. -/
def positiveFinite (x : F64) : Bool := !x.isNeg && x.isFinite && !x.isZero

theorem positiveFinite_iff {x : F64} :
    positiveFinite x = true ↔ x.isNeg = false ∧ x.isFinite = true ∧ x.isZero = false := by
  simp [positiveFinite, and_assoc]

/-- What holds of every word of a ROM holds of the word at each of its addresses. -/
theorem getD_of_all {rom : List F64} {p : F64 → Bool} (h : rom.all p = true) {k : Nat} (hk : k < rom.length) (d : F64) :
    p (rom.getD k d) = true := by
  rw [List.getD_eq_getElem _ _ hk]
  exact List.all_eq_true.1 h _ (List.getElem_mem hk)

theorem butterflyRom_length : butterflyRom.length = 255 := by decide +kernel

theorem butterflyRom_positive : butterflyRom.all positiveFinite = true := by decide +kernel

theorem butterflyRom_le_last : butterflyRom.all (fun x => x.magnitude ≤ (BF 8 127).magnitude) = true := by
  decide +kernel

theorem resampleRom_length : resampleRom.length = 126 := by decide +kernel

theorem resampleRom_positive : resampleRom.all positiveFinite = true := by decide +kernel

/-! ### The butterfly table -/

section
variable {l i : Nat} (large : l ≤ 8) (index : i < 2 ^ (l - 1))
include large index

/-- The address of every entry is one of the ROM's (R66). -/
theorem bfAddress_lt : bfAddress l i < butterflyRom.length := by
  have half : 2 ^ (l - 1) ≤ 2 ^ 7 := Nat.pow_le_pow_right (by omega) (by omega)
  rw [butterflyRom_length, bfAddress]
  omega

theorem BF_positive : positiveFinite (BF l i) = true :=
  getD_of_all butterflyRom_positive (bfAddress_lt large index) _

theorem BF_le_last : (BF l i).magnitude ≤ (BF 8 127).magnitude :=
  of_decide_eq_true (getD_of_all butterflyRom_le_last (bfAddress_lt large index) F64.zero)

end

/-- The entries of one size increase strictly (R69). -/
theorem BF_increasing : ∀ l ∈ List.range' 1 8, ∀ i ∈ List.range (2 ^ (l - 1)),
    i + 1 < 2 ^ (l - 1) → (BF l i).magnitude < (BF l (i + 1)).magnitude := by
  decide +kernel

/-- The first entry of each size lies in [0.5000094, 0.7071068] (R69). -/
theorem BF_first : ∀ l ∈ List.range' 1 8,
    5000094 * 2 ^ 1074 ≤ (BF l 0).magnitude * 10 ^ 7 ∧ (BF l 0).magnitude * 10 ^ 7 ≤ 7071068 * 2 ^ 1074 := by
  decide +kernel

/-! ### The resample table -/

/-- The downsampling tables stand first in the ROM (R66). -/
theorem rsAddress_down (t i : Nat) : rsAddress (t + 3) t i = 2 ^ t - 1 + i := by
  simp [rsAddress]

/-- The upsampling tables follow, in the same order (R66). -/
theorem rsAddress_up (t i : Nat) : rsAddress t (t + 3) i = 63 + rsAddress (t + 3) t i := by
  have row : 0 < 2 ^ t := Nat.two_pow_pos t
  simp only [rsAddress, if_neg (show ¬t + 3 < t by omega), if_pos (show t < t + 3 by omega)]
  omega

section
variable {t i : Nat} (size : t < 6) (index : i < 2 ^ t)
include size index

theorem rsAddress_down_lt : rsAddress (t + 3) t i < 63 := by
  have row : 2 ^ t ≤ 2 ^ 5 := Nat.pow_le_pow_right (by omega) (by omega)
  rw [rsAddress_down]
  omega

theorem RS_down_positive : positiveFinite (RS (t + 3) t i) = true := by
  have address := rsAddress_down_lt size index
  exact getD_of_all resampleRom_positive (by rw [resampleRom_length]; omega) _

theorem RS_up_positive : positiveFinite (RS t (t + 3) i) = true := by
  have address := rsAddress_down_lt size index
  exact getD_of_all resampleRom_positive (by rw [resampleRom_length, rsAddress_up]; omega) _

end

/-- Index 0 is 1.0 in both directions (R69). -/
theorem RS_zero : ∀ t ∈ List.range 6, RS (t + 3) t 0 = one ∧ RS t (t + 3) 0 = one := by
  decide +kernel

/-- The downsampling entries of one size decrease strictly (R69). -/
theorem RS_down_decreasing : ∀ t ∈ List.range 6, ∀ i ∈ List.range (2 ^ t),
    i + 1 < 2 ^ t → (RS (t + 3) t (i + 1)).magnitude < (RS (t + 3) t i).magnitude := by
  decide +kernel

/-- The upsampling entries of one size increase strictly. -/
theorem RS_up_increasing : ∀ t ∈ List.range 6, ∀ i ∈ List.range (2 ^ t),
    i + 1 < 2 ^ t → (RS t (t + 3) i).magnitude < (RS t (t + 3) (i + 1)).magnitude := by
  decide +kernel

/-- From 1.0 the downsampling entries only fall (R69). -/
theorem RS_down_le_one {t : Nat} (size : t ∈ List.range 6) {i : Nat} (index : i < 2 ^ t) :
    (RS (t + 3) t i).magnitude ≤ one.magnitude := by
  induction i with
  | zero => rw [(RS_zero t size).1]
  | succ i ih =>
    have below : i < 2 ^ t := by omega
    exact (RS_down_decreasing t size i (List.mem_range.2 below) index).le.trans (ih below)

/-- From 1.0 the upsampling entries only rise (R69). -/
theorem one_le_RS_up {t : Nat} (size : t ∈ List.range 6) {i : Nat} (index : i < 2 ^ t) :
    one.magnitude ≤ (RS t (t + 3) i).magnitude := by
  induction i with
  | zero => rw [(RS_zero t size).2]
  | succ i ih =>
    have below : i < 2 ^ t := by omega
    exact (ih below).trans (RS_up_increasing t size i (List.mem_range.2 below) index).le

end Sys2Proof.Machine

namespace Sys2Proof.Claims

open Sys2Proof.Machine

/-- A downsampling entry times its upsampling entry (R69). -/
def pairProduct (t i : Nat) : F64 := fmul 0#64 (RS (t + 3) t i) (RS t (t + 3) i)

/-- 1.0 and the two encodings next to it. -/
def nearOne : List F64 := [one, 0x3FEFFFFFFFFFFFFF#64, 0x3FF0000000000001#64]

theorem pairProduct_nearOne : ∀ t ∈ List.range 6, ∀ i ∈ List.range (2 ^ t), pairProduct t i ∈ nearOne := by
  decide +kernel

/-- How many pairs of each size have the product 1.0, from 8 and 1 to 256 and 32. -/
theorem count_pairProduct_one :
    (List.range 6).map (fun t => ((List.range (2 ^ t)).filter fun i => pairProduct t i == one).length) =
      [1, 1, 3, 7, 12, 25] := by
  decide +kernel

end Sys2Proof.Claims

namespace Sys2Proof.Proofs

open Sys2Proof.Machine Sys2Proof.Claims

/-- Settles O32: an entry is a word of the ROM, all of whose words are positive, finite and at most the last; the rest
compares neighbours or names single words. -/
theorem butterflyTableIsAsDescribed : Obligations.ButterflyTableIsAsDescribed := by
  unfold Obligations.ButterflyTableIsAsDescribed
  refine ⟨fun l hl i hi => ?_, BF_first, ?_, ?_, ?_, ?_, ?_, butterflyRom_length⟩
  · have large : l ≤ 8 := by rw [List.mem_range'_1] at hl; omega
    have index := List.mem_range.1 hi
    obtain ⟨neg, finite, zero⟩ := positiveFinite_iff.1 (BF_positive large index)
    exact ⟨neg, finite, zero, BF_le_last large index, BF_increasing l hl i hi⟩
  all_goals decide

/-- Settles O33: an entry is a word of the ROM, all of whose words are positive and finite; each row starts at 1.0 and
from there a downsampling row falls and an upsampling row rises. -/
theorem resampleTableIsAsDescribed : Obligations.ResampleTableIsAsDescribed := by
  unfold Obligations.ResampleTableIsAsDescribed
  refine ⟨fun t ht i hi => ?_, RS_zero, ?_, ?_, resampleRom_length⟩
  · have size := List.mem_range.1 ht
    have index := List.mem_range.1 hi
    obtain ⟨downNeg, -, downZero⟩ := positiveFinite_iff.1 (RS_down_positive size index)
    obtain ⟨upNeg, upFinite, -⟩ := positiveFinite_iff.1 (RS_up_positive size index)
    exact ⟨downNeg, upNeg, downZero, upFinite, RS_down_le_one ht index, one_le_RS_up ht index,
      RS_down_decreasing t ht i hi⟩
  all_goals decide

/-- Settles O34: every product is one of three encodings, and the counts of the six sizes add up to 49. -/
theorem resampleEntriesAreReciprocal : Obligations.ResampleEntriesAreReciprocal := by
  unfold Obligations.ResampleEntriesAreReciprocal
  refine ⟨fun t ht i hi => ?_, ?_⟩
  · simpa [nearOne, pairProduct] using pairProduct_nearOne t ht i hi
  · rw [List.length_flatMap]
    exact congrArg List.sum count_pairProduct_one

end Sys2Proof.Proofs
end

section
/-! PROOFS. Sums and products with zeros: which of them keep an operand bit for bit (R11). -/

namespace Sys2Proof

open Sys2Proof.Machine (positiveFinite positiveFinite_iff)

/-- The two zeros (R10). -/
theorem F64.eq_zero_or_negZero {x : F64} (h : x.isZero = true) : x = F64.zero ∨ x = F64.negZero := by
  rw [F64.isZero_iff] at h
  cases hneg : x.isNeg
  · exact .inl (F64.eq_of_isNeg_low hneg h)
  · exact .inr (F64.eq_of_isNeg_low hneg h)

theorem F64.isFinite_of_isZero {x : F64} (h : x.isZero = true) : x.isFinite = true := by
  rcases F64.eq_zero_or_negZero h with rfl | rfl <;> decide

theorem F64.magnitude_eq_zero_iff {x : F64} : x.magnitude = 0 ↔ x.isZero = true := by
  refine ⟨fun h => F64.isZero_iff.2 (F64.low_eq_zero_of_magnitude h), fun h => ?_⟩
  rcases F64.eq_zero_or_negZero h with rfl | rfl <;> decide

/-- A zero added to itself is that zero: the sum is -0 where both operands are. -/
theorem fadd_self_of_isZero {c z : F64} (h : z.isZero = true) : fadd c z z = z := by
  have finite := F64.isFinite_of_isZero h
  rw [fadd_finite finite finite]
  rcases F64.eq_zero_or_negZero h with rfl | rfl <;> decide

/-- A zero subtracted from itself is +0: the operands have different signs. -/
theorem fsub_self_of_isZero {c z : F64} (h : z.isZero = true) : fsub c z z = F64.zero := by
  rcases F64.eq_zero_or_negZero h with rfl | rfl <;> exact (fadd_finite (by decide) (by decide)).trans (by decide)

/-- Adding a zero keeps every value but a NaN, bit for bit, unless it is +0 added to -0. -/
theorem fadd_of_isZero {c x z : F64} (number : x.isNaN = false) (zero : z.isZero = true)
    (sign : x = F64.negZero → z = F64.negZero) : fadd c x z = x := by
  have finite := F64.isFinite_of_isZero zero
  rcases F64.isInf_or_isFinite number with hinf | hfin
  · obtain ⟨notNaN, notInf⟩ : z.isNaN = false ∧ z.isInf = false := by
      rcases F64.eq_zero_or_negZero zero with rfl | rfl <;> decide
    simp [fadd, number, hinf, notNaN, notInf]
  · have sum : x.value = x.value + z.value := by
      rw [F64.value_eq_zero_iff.2 (F64.magnitude_eq_zero_iff.2 zero), add_zero]
    rw [fadd_finite hfin finite]
    by_cases hx : x.value = 0
    · rw [addFinite_zero (sum.symm.trans hx)]
      rcases F64.eq_zero_or_negZero (F64.magnitude_eq_zero_iff.1 (F64.value_eq_zero_iff.1 hx)) with rfl | rfl
      · exact if_neg fun h => absurd h.1 (by decide)
      · exact if_pos ⟨rfl, sign rfl⟩
    · exact addFinite_exact hfin sum hx

/-- Adding +0 keeps every value but a NaN and -0. -/
theorem fadd_zero {c x : F64} (number : x.isNaN = false) (ne : x ≠ F64.negZero) : fadd c x F64.zero = x :=
  fadd_of_isZero number (by decide) fun h => absurd h ne

/-- Subtracting +0 keeps every value but a NaN. -/
theorem fsub_zero {c x : F64} (number : x.isNaN = false) : fsub c x F64.zero = x :=
  fadd_of_isZero number (by decide) fun _ => by decide

/-- A zero times a positive finite number is that zero. -/
theorem fmul_of_isZero {c z y : F64} (zero : z.isZero = true) (positive : positiveFinite y = true) :
    fmul c z y = z := by
  obtain ⟨neg, finite, -⟩ := positiveFinite_iff.1 positive
  have product : z.magnitude * y.magnitude = z.magnitude * 2 ^ 1074 := by
    rw [F64.magnitude_eq_zero_iff.2 zero, Nat.zero_mul, Nat.zero_mul]
  rw [fmul_finite (F64.isFinite_of_isZero zero) finite, neg, Bool.bne_false, product,
    roundPack_magnitude (F64.isFinite_of_isZero zero)]

end Sys2Proof
end

section
/-! PROOFS. The recursions of FWD and INV level by level: what each element of a level's output is (R73, R74). -/

namespace Sys2Proof.Machine

open Config (OpSite Branch)
open Sys2Proof.Claims (vector)

variable (c : OpSite → F64) (p : List Branch) (l : Nat) (v : List F64)

@[simp] theorem elem_vector (f : Nat → F64) {n k : Nat} (h : k < n) : elem (vector n f) k = f k :=
  elem_map_range f h

@[simp] theorem elem_replicate (x : F64) {n k : Nat} (h : k < n) : elem (List.replicate n x) k = x := by
  simp [elem, h]

/-- Two vectors of one length with the same elements are equal. -/
theorem eq_of_elem {v w : List F64} (length : v.length = w.length) (elems : ∀ k < w.length, elem v k = elem w k) :
    v = w := by
  refine List.ext_getElem length fun k hv hw => ?_
  simpa [elem, hv, hw] using elems k hw

/-! ### LeeF -/

/-- `a` of R73, the symmetric sums. -/
def leeFSums : List F64 :=
  vector (2 ^ l) fun i => fadd (c ⟨p, .sum, i⟩) (elem v i) (elem v (2 ^ (l + 1) - 1 - i))

/-- `b` of R73, the scaled antisymmetric differences. -/
def leeFDiffs : List F64 :=
  vector (2 ^ l) fun i =>
    fmul (c ⟨p, .twiddle, i⟩) (fsub (c ⟨p, .diff, i⟩) (elem v i) (elem v (2 ^ (l + 1) - 1 - i))) (BF (l + 1) i)

/-- `A` of R73, the half-size transform of the sums. -/
def leeFEven : List F64 := leeF c l (.evenHalf :: p) (leeFSums c p l v)

/-- `B` of R73, the half-size transform of the scaled differences. -/
def leeFOdd : List F64 := leeF c l (.oddHalf :: p) (leeFDiffs c p l v)

theorem elem_leeF_succ {k : Nat} (hk : k < 2 ^ (l + 1)) : elem (leeF c (l + 1) p v) k =
    if k % 2 = 0 then elem (leeFEven c p l v) (k / 2)
    else if k = 2 ^ (l + 1) - 1 then elem (leeFOdd c p l v) (2 ^ l - 1)
    else fadd (c ⟨p, .fold, k / 2⟩) (elem (leeFOdd c p l v) (k / 2)) (elem (leeFOdd c p l v) (k / 2 + 1)) :=
  elem_map_range _ hk

variable {l}

/-- `out[2i] <- A[i]` (R73). -/
theorem elem_leeF_even {i : Nat} (hi : i < 2 ^ l) :
    elem (leeF c (l + 1) p v) (2 * i) = elem (leeFEven c p l v) i := by
  rw [elem_leeF_succ c p l v (by omega), if_pos (by omega), Nat.mul_div_cancel_left i two_pos]

/-- `out[2i+1] <- fadd(B[i], B[i+1])` (R73). -/
theorem elem_leeF_odd {i : Nat} (hi : i + 1 < 2 ^ l) : elem (leeF c (l + 1) p v) (2 * i + 1) =
    fadd (c ⟨p, .fold, i⟩) (elem (leeFOdd c p l v) i) (elem (leeFOdd c p l v) (i + 1)) := by
  rw [elem_leeF_succ c p l v (by omega), if_neg (by omega), if_neg (by omega), show (2 * i + 1) / 2 = i by omega]

/-- `out[n-1] <- B[h-1]` (R73). -/
theorem elem_leeF_last : elem (leeF c (l + 1) p v) (2 ^ (l + 1) - 1) = elem (leeFOdd c p l v) (2 ^ l - 1) := by
  have half : 0 < 2 ^ l := Nat.two_pow_pos l
  rw [elem_leeF_succ c p l v (by omega), if_neg (by omega), if_pos rfl]

variable (l)

/-! ### DCT3 -/

/-- `alpha` of R74, the even coefficients. -/
def dct3Alpha : List F64 := vector (2 ^ l) fun j => elem v (2 * j)

/-- `beta` of R74, the unfolded odd coefficients. -/
def dct3Beta : List F64 :=
  vector (2 ^ l) fun j =>
    if j = 0 then elem v 1 else fadd (c ⟨p, .unfold, j⟩) (elem v (2 * j - 1)) (elem v (2 * j + 1))

/-- `A` of R74, the half-size transform of the even coefficients. -/
def dct3Even : List F64 := dct3 c l (.evenHalf :: p) (dct3Alpha l v)

/-- `B` of R74, the half-size transform of the unfolded odd ones. -/
def dct3Odd : List F64 := dct3 c l (.oddHalf :: p) (dct3Beta c p l v)

/-- `t` of R74, at its element. -/
def dct3Scaled (i : Nat) : F64 := fmul (c ⟨p, .retwiddle, i⟩) (elem (dct3Odd c p l v) i) (BF (l + 1) i)

variable {l}

/-- `out[i] <- fadd(A[i], t)` (R74). -/
theorem elem_dct3_front {i : Nat} (hi : i < 2 ^ l) : elem (dct3 c (l + 1) p v) i =
    fadd (c ⟨p, .plus, i⟩) (elem (dct3Even c p l v) i) (dct3Scaled c p l v i) := by
  simp only [dct3]
  rw [elem_map_range _ (by omega), if_pos hi, elem_map_range _ hi]
  rfl

/-- `out[n-1-i] <- fsub(A[i], t)` (R74). -/
theorem elem_dct3_back {i : Nat} (hi : i < 2 ^ l) : elem (dct3 c (l + 1) p v) (2 ^ (l + 1) - 1 - i) =
    fsub (c ⟨p, .minus, i⟩) (elem (dct3Even c p l v) i) (dct3Scaled c p l v i) := by
  simp only [dct3]
  rw [elem_map_range _ (by omega), if_neg (by omega), show 2 ^ (l + 1) - 1 - (2 ^ (l + 1) - 1 - i) = i by omega,
    elem_map_range _ hi]
  rfl

end Sys2Proof.Machine

namespace Sys2Proof.Proofs

open Sys2Proof.Machine Sys2Proof.Claims

/-- Settles O17, case by case of the level's output. -/
theorem leeFElements : Obligations.LeeFElements := by
  unfold Obligations.LeeFElements
  exact fun c p v => ⟨rfl, fun l => ⟨leeF_length .., fun _ => elem_leeF_even c p v, fun _ => elem_leeF_odd c p v,
    elem_leeF_last c p v⟩⟩

/-- Settles O18, half by half of the level's output. -/
theorem dct3Elements : Obligations.Dct3Elements := by
  unfold Obligations.Dct3Elements
  exact fun c p x => ⟨rfl, fun l => ⟨dct3_length .., fun _ => elem_dct3_front c p x,
    fun _ => elem_dct3_back c p x⟩⟩

end Sys2Proof.Proofs
end

section
/-! PROOFS. What FWD makes of zeros, and INV of a DC coefficient (R75, R76). -/

namespace Sys2Proof.Machine

open Config (OpSite Branch)

/-- FWD's scale factors are positive and finite: they are powers of two (R75). -/
theorem forwardScale_positive {l : Nat} (size : l ≤ 8) (k : Nat) : positiveFinite (forwardScale l k) = true := by
  have factors : ∀ l : Nat, l ≤ 8 →
      positiveFinite (pow2 (-(l : Int))) = true ∧ positiveFinite (pow2 (1 - (l : Int))) = true := by decide
  unfold forwardScale
  split
  · exact (factors l size).1
  · exact (factors l size).2

/-- Of a vector of one zero, `LeeF` has that zero in word 0 and +0 in every other: the sums are that zero again, and the
differences are +0. -/
theorem elem_leeF_of_isZero (c : OpSite → F64) {l : Nat} (size : l ≤ 8) (p : List Branch) {v : List F64} {z : F64}
    (zero : z.isZero = true) (input : ∀ k < 2 ^ l, elem v k = z) {k : Nat} (hk : k < 2 ^ l) :
    elem (leeF c l p v) k = if k = 0 then z else F64.zero := by
  induction l generalizing p v z k with
  | zero =>
    obtain rfl : k = 0 := by omega
    exact input 0 hk
  | succ l ih =>
    have even : ∀ i < 2 ^ l, elem (leeFEven c p l v) i = if i = 0 then z else F64.zero := fun i hi =>
      ih (by omega) _ zero (fun j hj => by
        rw [leeFSums, elem_vector _ hj, input j (by omega), input _ (by omega), fadd_self_of_isZero zero]) hi
    have odd : ∀ i < 2 ^ l, elem (leeFOdd c p l v) i = F64.zero := fun i hi =>
      (ih (by omega) _ (z := F64.zero) (by decide) (fun j hj => by
        rw [leeFDiffs, elem_vector _ hj, input j (by omega), input _ (by omega), fsub_self_of_isZero zero,
          fmul_of_isZero (by decide) (BF_positive size hj)]) hi).trans (ite_self _)
    obtain ⟨i, rfl | rfl⟩ : ∃ i, k = 2 * i ∨ k = 2 * i + 1 := ⟨k / 2, by omega⟩
    · rw [elem_leeF_even c p v (by omega), even i (by omega)]
      simp
    · rw [if_neg (by omega)]
      by_cases last : i + 1 < 2 ^ l
      · rw [elem_leeF_odd c p v last, odd i (by omega), odd _ last, fadd_self_of_isZero (by decide)]
      · rw [show 2 * i + 1 = 2 ^ (l + 1) - 1 by omega, elem_leeF_last, odd _ (by omega)]

/-- FWD of one zero in every word gives that zero in word 0 and +0 in every other: the scaling keeps a zero (R75). -/
theorem fwdVector_of_isZero (c : OpSite → F64) {l : Nat} (size : l ≤ 8) {z : F64} (zero : z.isZero = true) :
    fwdVector c l (List.replicate (2 ^ l) z) = z :: List.replicate (2 ^ l - 1) F64.zero := by
  have words : 0 < 2 ^ l := Nat.two_pow_pos l
  have length : (z :: List.replicate (2 ^ l - 1) F64.zero).length = 2 ^ l := by simp; omega
  refine eq_of_elem ((fwdVector_length ..).trans length.symm) fun k hk => ?_
  rw [length] at hk
  rw [fwdVector, elem_map_range _ hk, elem_leeF_of_isZero c size [] zero (fun _ => elem_replicate z) hk]
  cases k with
  | zero => exact fmul_of_isZero zero (forwardScale_positive size 0)
  | succ k =>
    rw [if_neg k.succ_ne_zero, fmul_of_isZero (by decide) (forwardScale_positive size _)]
    exact (elem_replicate _ (by omega)).symm

/-- Of a DC coefficient and +0 in every other word, `DCT3` has the DC value in every word: the odd half is a transform
of +0 alone, and adding or subtracting its +0 keeps the value. -/
theorem elem_dct3_of_dc (c : OpSite → F64) {l : Nat} (size : l ≤ 8) (p : List Branch) {v : List F64} {x : F64}
    (number : x.isNaN = false) (ne : x ≠ F64.negZero)
    (input : ∀ k < 2 ^ l, elem v k = if k = 0 then x else F64.zero) {k : Nat} (hk : k < 2 ^ l) :
    elem (dct3 c l p v) k = x := by
  induction l generalizing p v x k with
  | zero =>
    obtain rfl : k = 0 := by omega
    exact input 0 hk
  | succ l ih =>
    have even : ∀ i < 2 ^ l, elem (dct3Even c p l v) i = x := fun i hi =>
      ih (by omega) _ number ne (fun j hj => by
        rw [dct3Alpha, elem_vector _ hj, input _ (by omega)]
        simp) hi
    have odd : ∀ i < 2 ^ l, elem (dct3Odd c p l v) i = F64.zero := fun i hi =>
      ih (by omega) _ (by decide) (by decide) (fun j hj => by
        rw [ite_self, dct3Beta, elem_vector _ hj]
        split
        · rw [input 1 (by omega), if_neg one_ne_zero]
        · rw [input _ (by omega), input _ (by omega), if_neg (by omega), if_neg (by omega),
            fadd_self_of_isZero (by decide)]) hi
    have scaled : ∀ i < 2 ^ l, dct3Scaled c p l v i = F64.zero := fun i hi => by
      rw [dct3Scaled, odd i hi, fmul_of_isZero (by decide) (BF_positive size hi)]
    by_cases front : k < 2 ^ l
    · rw [elem_dct3_front c p v front, even k front, scaled k front, fadd_zero number ne]
    · obtain ⟨i, hi, rfl⟩ : ∃ i < 2 ^ l, k = 2 ^ (l + 1) - 1 - i := ⟨2 ^ (l + 1) - 1 - k, by omega, by omega⟩
      rw [elem_dct3_back c p v hi, even i hi, scaled i hi, fsub_zero number]

/-- The words of a DC-only vector. -/
theorem elem_dc (x : F64) {n k : Nat} (hk : k < n) :
    elem (x :: List.replicate (n - 1) F64.zero) k = if k = 0 then x else F64.zero := by
  cases k with
  | zero => rfl
  | succ k => exact elem_replicate _ (by omega)

/-- INV of a DC coefficient gives its value in every word, for every value but a NaN and -0 (R76). -/
theorem invVector_of_dc (c : OpSite → F64) {l : Nat} (size : l ≤ 8) {x : F64} (number : x.isNaN = false)
    (ne : x ≠ F64.negZero) :
    invVector c l (x :: List.replicate (2 ^ l - 1) F64.zero) = List.replicate (2 ^ l) x := by
  refine eq_of_elem (by rw [invVector_length, List.length_replicate]) fun k hk => ?_
  rw [List.length_replicate] at hk
  rw [elem_replicate x hk]
  exact elem_dct3_of_dc c size [] number ne (fun _ => elem_dc x) hk

end Sys2Proof.Machine

namespace Sys2Proof.Proofs

open Sys2Proof.Machine Sys2Proof.Claims

/-- Settles O19: the zero is +0, as are the words after it. -/
theorem forwardOfZerosIsZeros : Obligations.ForwardOfZerosIsZeros := by
  unfold Obligations.ForwardOfZerosIsZeros
  intro c l size
  calc fwdVector c l (List.replicate (2 ^ l) F64.zero)
      = F64.zero :: List.replicate (2 ^ l - 1) F64.zero := fwdVector_of_isZero c size (by decide)
    _ = List.replicate (2 ^ l - 1 + 1) F64.zero := rfl
    _ = List.replicate (2 ^ l) F64.zero := by rw [Nat.sub_add_cancel Nat.one_le_two_pow]

/-- Settles O20: the sums of -0 are -0, and the differences are +0. -/
theorem forwardOfNegativeZeros : Obligations.ForwardOfNegativeZeros := by
  unfold Obligations.ForwardOfNegativeZeros
  exact fun c l size => fwdVector_of_isZero c size (by decide)

/-- Settles O21: the odd halves are transforms of +0, which change no value but a NaN and -0. -/
theorem inverseOfDcIsConstant : Obligations.InverseOfDcIsConstant := by
  unfold Obligations.InverseOfDcIsConstant
  intro c l x size number nonzero
  refine invVector_of_dc c size number ?_
  rintro rfl
  exact absurd nonzero (by decide)

/-- Settles O22: at size 1 the recursions move the word, and FWD's scale factor is 1.0. -/
theorem oneWordTransformsKeepTheWord : Obligations.OneWordTransformsKeepTheWord := by
  unfold Obligations.OneWordTransformsKeepTheWord
  intro c x
  refine ⟨rfl, fun number => ?_⟩
  have scale : forwardScale 0 0 = one := by decide
  calc fwdVector c 0 [x] = [fmul (c ⟨[], .scale, 0⟩) x (forwardScale 0 0)] := rfl
    _ = [x] := by rw [scale, fmul_one number]

end Sys2Proof.Proofs
end

section
/-! PROOFS. FWD and INV past their check, with every operand initialised (R72, R75, R76, R92). -/

namespace Sys2Proof.Machine

open Sys2Proof.Claims (Operands vector)

section
variable {s : State} {l : Nat} {x : Nat → F64} (size : l ≤ 8) (operands : Operands s (2 ^ l) x)
include size operands

/-- FWD past its check writes its vector (R75). -/
theorem exec_fwd (src : BufSel) :
    exec (.fwd l src) s = .next (finishVector (2 ^ l) (fwdVector (drawnNaN s) l (vector (2 ^ l) x)) s) := by
  simp only [exec, execFwd, sizeSupported_iff.2 size, Bool.not_true, Bool.false_eq_true, if_false,
    operandVector_some operands, vector]

/-- INV past its check writes its vector (R76). -/
theorem exec_inv (src : BufSel) :
    exec (.inv l src) s = .next (finishVector (2 ^ l) (invVector (drawnNaN s) l (vector (2 ^ l) x)) s) := by
  simp only [exec, execInv, sizeSupported_iff.2 size, Bool.not_true, Bool.false_eq_true, if_false,
    operandVector_some operands, vector]

end

end Sys2Proof.Machine

namespace Sys2Proof.Claims

open Sys2Proof.Machine

/-- `finishVector` is the success branch of a vector command (R92). -/
theorem vectorWritten_finishVector {n : Nat} (size : n ≤ 256) {xs : List F64} (length : xs.length = n)
    {out : Nat → F64} (elems : ∀ k < n, elem xs k = out k) (s : State) :
    VectorWritten n out s (finishVector n xs s) where
  words k hk := by
    subst length
    rw [finishVector_mem, Memory.word_store_vector _ _ _ hk, ← elems k hk]
    simp [elem, hk]
  others a ha := Memory.byte_store_outside _ (by rw [flatMap_wordBytes_length, length]; omega)
  olen := by
    simp
    omega
  done := rfl
  busy := rfl
  err := rfl
  errcode := rfl
  werr := rfl
  ie := rfl
  cmd := rfl
  resultLo := rfl
  resultHi := rfl
  snap := rfl
  faults := rfl
  script := rfl
  responses := rfl

end Sys2Proof.Claims

namespace Sys2Proof.Proofs

open Sys2Proof.Machine Sys2Proof.Claims

/-- Settles O10: past its check FWD ends in `finishVector`, with the scaled outputs of `LeeF`. -/
theorem fwdCompletes : Obligations.FwdCompletes := by
  unfold Obligations.FwdCompletes
  intro s l src x size operands
  exact ⟨_, exec_fwd size operands src, vectorWritten_finishVector (size_le (sizeSupported_iff.2 size))
    (fwdVector_length ..) (fun k hk => elem_map_range _ hk) s⟩

/-- Settles O11: past its check INV ends in `finishVector`, with the outputs of `DCT3`. -/
theorem invCompletes : Obligations.InvCompletes := by
  unfold Obligations.InvCompletes
  intro s l src x size operands
  exact ⟨_, exec_inv size operands src, vectorWritten_finishVector (size_le (sizeSupported_iff.2 size))
    (invVector_length ..) (fun _ _ => rfl) s⟩

end Sys2Proof.Proofs
end

section
/-! PROOFS. DOWN and UP word by word: what each word of the result is, and what passes the stages unchanged (R79 to
R83). -/

namespace Sys2Proof

open Sys2Proof.Machine (positiveFinite positiveFinite_iff)

theorem F64.isZero_of_isInf {x : F64} (h : x.isInf = true) : x.isZero = false := by
  rw [← Bool.not_eq_true, F64.isZero_iff, F64.isInf_iff.1 h]
  decide

theorem F64.isNaN_of_isFinite {x : F64} (h : x.isFinite = true) : x.isNaN = false :=
  F64.isNaN_eq_false_iff.2 (F64.isFinite_iff.1 h).le

/-- An infinity times a positive finite number is that infinity. -/
theorem fmul_of_isInf {c x y : F64} (inf : x.isInf = true) (positive : positiveFinite y = true) : fmul c x y = x := by
  obtain ⟨neg, finite, nonzero⟩ := positiveFinite_iff.1 positive
  rw [fmul_inf (F64.isNaN_of_isInf inf) (F64.isNaN_of_isFinite finite) inf (F64.isZero_of_isInf inf) nonzero, neg,
    Bool.bne_false, F64.inf_isNeg inf]

end Sys2Proof

namespace Sys2Proof.Machine

open Config (OpSite)
open Sys2Proof.Claims (stageDown stageUp)

/-- An index of a size is one of every larger size. -/
theorem index_lt_of_le {i t u : Nat} (h : i < 2 ^ t) (le : t ≤ u) : i < 2 ^ u :=
  h.trans_le (Nat.pow_le_pow_right two_pos le)

section
variable (c : OpSite → F64)

/-! ### One word -/

/-- A word of DOWN by ratio 8 (R79). -/
theorem downElem_one (m t i : Nat) (x : F64) :
    downElem c m t 1 i x = fmul (c ⟨[], .stageOne, i⟩) x (RS m t i) :=
  if_pos rfl

/-- A word of DOWN by ratio 64 (R81). -/
theorem downElem_two (m t i : Nat) (x : F64) :
    downElem c m t 2 i x =
      fmul (c ⟨[], .stageTwo, i⟩) (fmul (c ⟨[], .stageOne, i⟩) x (RS m (m - 3) i)) (RS (m - 3) t i) :=
  if_neg (by decide)

/-- A word below T of UP by ratio 8 (R80). -/
theorem upElem_one (t m i : Nat) (x : F64) :
    upElem c t m 1 i x = fmul (c ⟨[], .stageOne, i⟩) x (RS t m i) :=
  if_pos rfl

/-- A word below T of UP by ratio 64 (R81). -/
theorem upElem_two (t m i : Nat) (x : F64) :
    upElem c t m 2 i x =
      fmul (c ⟨[], .stageTwo, i⟩) (fmul (c ⟨[], .stageOne, i⟩) x (RS t (t + 3) i)) (RS (t + 3) m i) :=
  if_neg (by decide)

/-! ### Vectors -/

variable {i : Nat} (v : List F64)

theorem elem_downVector (m : Nat) {t : Nat} (stages : Nat) (hi : i < 2 ^ t) :
    elem (downVector c m t stages v) i = downElem c m t stages i (elem v i) :=
  elem_map_range _ hi

theorem elem_upVector (t : Nat) {m : Nat} (stages : Nat) (hi : i < 2 ^ m) :
    elem (upVector c t m stages v) i = if i < 2 ^ t then upElem c t m stages i (elem v i) else F64.zero :=
  elem_map_range _ hi

theorem stageDown_length (d : Nat → F64) (t : Nat) : (stageDown d (t + 3) v).length = 2 ^ t := by
  simp [stageDown]

theorem stageUp_length (d : Nat → F64) (t : Nat) : (stageUp d t v).length = 2 ^ (t + 3) := by
  simp [stageUp]

theorem elem_stageDown (d : Nat → F64) {t : Nat} (hi : i < 2 ^ t) :
    elem (stageDown d (t + 3) v) i = fmul (d i) (elem v i) (RS (t + 3) t i) :=
  elem_map_range _ hi

theorem elem_stageUp (d : Nat → F64) {t : Nat} (hi : i < 2 ^ (t + 3)) :
    elem (stageUp d t v) i = if i < 2 ^ t then fmul (d i) (elem v i) (RS t (t + 3) i) else F64.zero :=
  elem_map_range _ hi

/-! ### Chains of stages -/

/-- DOWN by ratio 8 is one stage (R82). -/
theorem downVector_one (t : Nat) :
    downVector c (t + 3) t 1 v = stageDown (fun i => c ⟨[], .stageOne, i⟩) (t + 3) v := by
  refine eq_of_elem (by rw [downVector_length, stageDown_length]) fun k hk => ?_
  rw [stageDown_length] at hk
  rw [elem_downVector c v _ _ hk, downElem_one, elem_stageDown v _ hk]

/-- DOWN by ratio 64 is two stages: the second one reads the first T words of the first (R81, R82). -/
theorem downVector_two (t : Nat) :
    downVector c (t + 6) t 2 v =
      stageDown (fun i => c ⟨[], .stageTwo, i⟩) (t + 3) (stageDown (fun i => c ⟨[], .stageOne, i⟩) (t + 6) v) := by
  refine eq_of_elem (by rw [downVector_length, stageDown_length]) fun k hk => ?_
  rw [stageDown_length] at hk
  have first : k < 2 ^ (t + 3) := index_lt_of_le hk (by omega)
  rw [elem_downVector c v _ _ hk, downElem_two, show t + 6 - 3 = t + 3 from rfl, elem_stageDown _ _ hk,
    elem_stageDown v _ first]

/-- UP by ratio 8 is one stage (R83). -/
theorem upVector_one (t : Nat) : upVector c t (t + 3) 1 v = stageUp (fun i => c ⟨[], .stageOne, i⟩) t v := by
  refine eq_of_elem (by rw [upVector_length, stageUp_length]) fun k hk => ?_
  rw [stageUp_length] at hk
  rw [elem_upVector c v _ _ hk, upElem_one, elem_stageUp v _ hk]

/-- UP by ratio 64 is two stages: the padding of the first one is +0, which the second one keeps (R81, R83). -/
theorem upVector_two {t : Nat} (size : t + 6 ≤ 8) :
    upVector c t (t + 6) 2 v =
      stageUp (fun i => c ⟨[], .stageTwo, i⟩) (t + 3) (stageUp (fun i => c ⟨[], .stageOne, i⟩) t v) := by
  refine eq_of_elem (by rw [upVector_length, stageUp_length]) fun k hk => ?_
  rw [stageUp_length] at hk
  rw [elem_upVector c v _ _ hk, upElem_two, elem_stageUp _ _ hk]
  by_cases source : k < 2 ^ t
  · have first : k < 2 ^ (t + 3) := index_lt_of_le source (by omega)
    rw [if_pos source, if_pos first, elem_stageUp v _ first, if_pos source]
  · rw [if_neg source]
    split
    · next first =>
      rw [elem_stageUp v _ first, if_neg source, fmul_of_isZero (by decide) (RS_up_positive (by omega) first)]
    · rfl

end

/-! ### What every stage keeps -/

/-- Every ratio-8 stage between sizes of 2^t or more gives `x` back at index `i`, in both directions. -/
def StagesKeep (t i : Nat) (x : F64) : Prop :=
  ∀ u, t ≤ u → u < 6 → ∀ c : F64, fmul c x (RS (u + 3) u i) = x ∧ fmul c x (RS u (u + 3) i) = x

/-- What every stage keeps passes DOWN and UP unchanged, by one stage or by two (R81). -/
theorem elem_resampled_of_stagesKeep (c : OpSite → F64) {a b n i : Nat} {v : List F64} (size : a ≤ 8)
    (ratio : resampleStages a b = some n) (index : i < 2 ^ b) (keep : StagesKeep b i (elem v i)) :
    elem (downVector c a b n v) i = elem v i ∧ elem (upVector c b a n v) i = elem v i := by
  have larger : b ≤ a := by
    rw [resampleStages_eq_some] at ratio
    omega
  rw [elem_downVector c v a n index, elem_upVector c v b n (index_lt_of_le index larger), if_pos index]
  rcases resampleStages_eq_some.1 ratio with ⟨rfl, rfl⟩ | ⟨rfl, rfl⟩
  · have first := keep b le_rfl (by omega)
    rw [downElem_one, upElem_one]
    exact ⟨(first _).1, (first _).2⟩
  · have inner := keep b le_rfl (by omega)
    have outer := keep (b + 3) (by omega) (by omega)
    constructor
    · rw [downElem_two, show b + 6 - 3 = b + 3 from rfl, (outer _).1, (inner _).1]
    · rw [upElem_two, (inner _).2, (outer _).2]

/-- The factor at index 0 is 1.0, which keeps every value but a NaN (R69, R79). -/
theorem stagesKeep_dc (t : Nat) {x : F64} (number : x.isNaN = false) : StagesKeep t 0 x := by
  intro u _ size c
  obtain ⟨down, up⟩ := RS_zero u (List.mem_range.2 size)
  rw [down, up]
  exact ⟨fmul_one number, fmul_one number⟩

/-- The factors are positive finite numbers, which keep zeros and infinities (R69, R82). -/
theorem stagesKeep_zero_inf {t i : Nat} (index : i < 2 ^ t) {x : F64} (h : x.isZero = true ∨ x.isInf = true) :
    StagesKeep t i x := by
  intro u le size c
  have within := index_lt_of_le index le
  have down := RS_down_positive size within
  have up := RS_up_positive size within
  rcases h with zero | inf
  · exact ⟨fmul_of_isZero zero down, fmul_of_isZero zero up⟩
  · exact ⟨fmul_of_isInf inf down, fmul_of_isInf inf up⟩

end Sys2Proof.Machine

namespace Sys2Proof.Proofs

open Sys2Proof.Machine Sys2Proof.Claims

/-- Settles O23: the second stage keeps the +0 that the first one pads with. -/
theorem upIsAChainOfStages : Obligations.UpIsAChainOfStages := by
  unfold Obligations.UpIsAChainOfStages
  exact fun c a v => ⟨fun _ => upVector_one c v a, upVector_two c v⟩

/-- Settles O24: the second stage reads the first words of the first one's result. -/
theorem downIsAChainOfStages : Obligations.DownIsAChainOfStages := by
  unfold Obligations.DownIsAChainOfStages
  exact fun c b v => ⟨fun _ => downVector_one c v b, fun _ => downVector_two c v b⟩

/-- Settles O25: every table starts at 1.0. -/
theorem dcPassesResamplingUnchanged : Obligations.DcPassesResamplingUnchanged := by
  unfold Obligations.DcPassesResamplingUnchanged
  intro c a b n v size ratio number
  exact elem_resampled_of_stagesKeep c size ratio (Nat.two_pow_pos b) (stagesKeep_dc b number)

/-- Settles O26: every table entry is positive and finite. -/
theorem resamplingKeepsZerosAndInfinities : Obligations.ResamplingKeepsZerosAndInfinities := by
  unfold Obligations.ResamplingKeepsZerosAndInfinities
  intro c a b n i v size ratio index value
  exact elem_resampled_of_stagesKeep c size ratio index (stagesKeep_zero_inf index value)

end Sys2Proof.Proofs
end

section
/-! PROOFS. DOWN and UP past their checks, with every operand initialised (R78, R82, R83, R92). -/

namespace Sys2Proof.Machine

open Sys2Proof.Claims (Operands vector VectorWritten vectorWritten_finishVector)

/-- The checks of DOWN and UP on their sizes pass where the larger one is supported and the ratio chains (R81). -/
theorem sizes_supported {big small n : Nat} (size : big ≤ 8) (ratio : resampleStages big small = some n) :
    sizeSupported big = true ∧ sizeSupported small = true := by
  rw [resampleStages_eq_some] at ratio
  exact ⟨sizeSupported_iff.2 size, sizeSupported_iff.2 (by omega)⟩

section
variable {s : State} {big small n : Nat} {x : Nat → F64} (size : big ≤ 8) (ratio : resampleStages big small = some n)
  (operands : Operands s (2 ^ small) x)
include size ratio operands

/-- DOWN past its checks writes its vector (R82). -/
theorem exec_down (src : BufSel) : exec (.down big small src) s =
    .next (finishVector (2 ^ small) (downVector (drawnNaN s) big small n (vector (2 ^ small) x)) s) := by
  obtain ⟨supportedBig, supportedSmall⟩ := sizes_supported size ratio
  simp only [exec, execDown, supportedBig, supportedSmall, Bool.not_true, Bool.or_self, Bool.false_eq_true, if_false,
    ratio, operandVector_some operands, vector]

/-- UP past its checks writes its vector (R83). -/
theorem exec_up (src : BufSel) : exec (.up small big src) s =
    .next (finishVector (2 ^ big) (upVector (drawnNaN s) small big n (vector (2 ^ small) x)) s) := by
  obtain ⟨supportedBig, supportedSmall⟩ := sizes_supported size ratio
  simp only [exec, execUp, supportedBig, supportedSmall, Bool.not_true, Bool.or_self, Bool.false_eq_true, if_false,
    ratio, operandVector_some operands, vector]

/-- DOWN completes with the scaled operand words (R82, R92). -/
theorem down_written (src : BufSel) : ∃ t, exec (.down big small src) s = .next t ∧
    VectorWritten (2 ^ small) (fun k => downElem (drawnNaN s) big small n k (x k)) s t := by
  refine ⟨_, exec_down size ratio operands src,
    vectorWritten_finishVector (size_le (sizes_supported size ratio).2) (downVector_length ..) (fun k hk => ?_) s⟩
  rw [elem_downVector _ _ _ _ hk, elem_vector x hk]

/-- UP completes with the scaled operand words and the padding (R83, R92). -/
theorem up_written (src : BufSel) : ∃ t, exec (.up small big src) s = .next t ∧
    VectorWritten (2 ^ big)
      (fun k => if k < 2 ^ small then upElem (drawnNaN s) small big n k (x k) else F64.zero) s t := by
  refine ⟨_, exec_up size ratio operands src,
    vectorWritten_finishVector (size_le (sizes_supported size ratio).1) (upVector_length ..) (fun k hk => ?_) s⟩
  rw [elem_upVector _ _ _ _ hk]
  split
  · next source => rw [elem_vector x source]
  · rfl

end

end Sys2Proof.Machine

namespace Sys2Proof.Proofs

open Sys2Proof.Machine Sys2Proof.Claims

/-- Settles O12: past its checks DOWN ends in `finishVector`, with the products of one stage or of two. -/
theorem downCompletes : Obligations.DownCompletes := by
  unfold Obligations.DownCompletes
  intro s a b src x size operands
  constructor
  · intro ratio
    have written := down_written size (resampleStages_eq_some.2 (.inl ⟨ratio, rfl⟩)) operands src
    simp only [downElem_one] at written
    exact written
  · intro ratio
    have written := down_written size (resampleStages_eq_some.2 (.inr ⟨ratio, rfl⟩)) operands src
    simp only [downElem_two] at written
    exact written

/-- Settles O13: past its checks UP ends in `finishVector`, with the products of one stage or of two, and +0. -/
theorem upCompletes : Obligations.UpCompletes := by
  unfold Obligations.UpCompletes
  intro s a b src x size operands
  constructor
  · intro ratio
    have written := up_written size (resampleStages_eq_some.2 (.inl ⟨ratio, rfl⟩)) operands src
    simp only [upElem_one] at written
    exact written
  · intro ratio
    have written := up_written size (resampleStages_eq_some.2 (.inr ⟨ratio, rfl⟩)) operands src
    simp only [upElem_two] at written
    exact written

end Sys2Proof.Proofs
end

section
/-! PROOFS. What a command whose checks pass does: it misses an operand, or it writes what its operands and the drawn
NaN encodings determine (R72, R78, R89, R90, R92, R93). -/

namespace Sys2Proof.Claims

open Sys2Proof.Machine

/-! ### The checks that pass -/

/-- The checks of a word pass where it is a command's and the command's checks pass (R89). -/
theorem wordCode_eq_none {w : Word} : wordCode w = none ↔ ∃ i, decode w = .ok i ∧ checkCode i = none := by
  cases word : decode w with
  | ok i => simp [wordCode, word]
  | error r => simp [wordCode, word]

theorem checkCode_fwd {a : Nat} {src : BufSel} : checkCode (.fwd a src) = none ↔ a ≤ 8 := by
  simp [checkCode]

theorem checkCode_inv {a : Nat} {src : BufSel} : checkCode (.inv a src) = none ↔ a ≤ 8 := by
  simp [checkCode]

/-- With a ratio that chains, DOWN's smaller size is supported where its larger one is (R82). -/
theorem checkCode_down {a b : Nat} {src : BufSel} :
    checkCode (.down a b src) = none ↔ a ≤ 8 ∧ ∃ n, resampleStages a b = some n := by
  simp only [checkCode, resampleStages_eq_some]
  grind

/-- With a ratio that chains, UP's smaller size is supported where its larger one is (R83). -/
theorem checkCode_up {a b : Nat} {src : BufSel} :
    checkCode (.up a b src) = none ↔ b ≤ 8 ∧ ∃ n, resampleStages b a = some n := by
  simp only [checkCode, resampleStages_eq_some]
  grind

theorem checkCode_rdrs {a b i : Nat} :
    checkCode (.rdrs a b i) = none ↔ a ≤ 8 ∧ b ≤ 8 ∧ (a = b + 3 ∨ b = a + 3) ∧ i < 2 ^ min a b := by
  simp only [checkCode]
  grind

theorem checkCode_rdbf {a i : Nat} : checkCode (.rdbf a i) = none ↔ 2 ≤ a ∧ a ≤ 8 ∧ i < 2 ^ (a - 1) := by
  simp only [checkCode]
  grind

/-! ### A missing operand -/

/-- An operand word of the command has a half that is not initialised (R90). -/
def MissingOperand (s : State) (i : Instr) : Prop := ∃ k < operandCount i, s.snap.word (8 * k) = none

/-- With an operand missing, a command whose checks pass records that and writes nothing (R90, R92). -/
theorem exec_of_missing {s : State} {i : Instr} (checks : checkCode i = none) (missing : MissingOperand s i) :
    exec i s = .next (s.recordFault .uninitOperand) := by
  have operands : operandVector s (operandCount i) = none := operandVector_none.2 missing
  cases i with
  | fwd a src =>
    simp only [operandCount] at operands
    simp [exec, execFwd, sizeSupported_iff.2 (checkCode_fwd.1 checks), operands]
  | inv a src =>
    simp only [operandCount] at operands
    simp [exec, execInv, sizeSupported_iff.2 (checkCode_inv.1 checks), operands]
  | down a b src =>
    obtain ⟨size, n, ratio⟩ := checkCode_down.1 checks
    obtain ⟨big, small⟩ := sizes_supported size ratio
    simp only [operandCount] at operands
    simp [exec, execDown, big, small, ratio, operands]
  | up a b src =>
    obtain ⟨size, n, ratio⟩ := checkCode_up.1 checks
    obtain ⟨big, small⟩ := sizes_supported size ratio
    simp only [operandCount] at operands
    simp [exec, execUp, big, small, ratio, operands]
  | rdrs a b i => simp [MissingOperand, operandCount] at missing
  | rdbf a i => simp [MissingOperand, operandCount] at missing

/-- Without a missing operand the operand words have values (R72, R78). -/
theorem operands_of_not_missing {s : State} {i : Instr} (present : ¬ MissingOperand s i) :
    ∃ x, Operands s (operandCount i) x := by
  refine ⟨fun k => (s.snap.word (8 * k)).getD F64.zero, fun k hk => ?_⟩
  obtain ⟨v, word⟩ := Option.ne_none_iff_exists'.1 fun unmarked => present ⟨k, hk, unmarked⟩
  simp only [word, Option.getD_some]

/-! ### A success -/

/-- What a command reads is the same in both states: the snapshot, and the draws of NaN encodings (R12, R93). -/
structure SameInputs (s u : State) : Prop where
  snap : u.snap = s.snap
  draws : u.draws = s.draws

theorem SameInputs.drawnNaN {s u : State} (same : SameInputs s u) : drawnNaN u = drawnNaN s := by
  funext site
  rw [Machine.drawnNaN, same.draws, Machine.drawnNaN]

theorem SameInputs.operands {s u : State} (same : SameInputs s u) {n : Nat} {x : Nat → F64} (h : Operands s n x) :
    Operands u n x :=
  fun k hk => same.snap ▸ h k hk

theorem SameInputs.missing {s u : State} (same : SameInputs s u) {i : Instr} (h : MissingOperand s i) :
    MissingOperand u i := by
  rw [MissingOperand, same.snap]
  exact h

/-- The two ways in which a success changes the state (R92). -/
inductive Writes : (State → State) → Prop where
  | vector (l : Nat) (xs : List F64) (size : 2 ^ l ≤ 256) (length : xs.length = 2 ^ l) :
      Writes (finishVector (2 ^ l) xs)
  | scalar (v : F64) : Writes (finishScalar v)

/-- With its operands there, a command whose checks pass succeeds, and it makes the same change to every state with the
same inputs (R92, R93). -/
theorem exec_of_present {s : State} {i : Instr} (checks : checkCode i = none) (present : ¬ MissingOperand s i) :
    ∃ write, Writes write ∧ ∀ u, SameInputs s u → exec i u = .next (write u) := by
  obtain ⟨x, operands⟩ := operands_of_not_missing present
  cases i with
  | fwd a src =>
    have size := checkCode_fwd.1 checks
    exact ⟨_, .vector a _ (size_le (sizeSupported_iff.2 size)) (fwdVector_length ..),
      fun u same => same.drawnNaN ▸ exec_fwd size (same.operands operands) src⟩
  | inv a src =>
    have size := checkCode_inv.1 checks
    exact ⟨_, .vector a _ (size_le (sizeSupported_iff.2 size)) (invVector_length ..),
      fun u same => same.drawnNaN ▸ exec_inv size (same.operands operands) src⟩
  | down a b src =>
    obtain ⟨size, n, ratio⟩ := checkCode_down.1 checks
    exact ⟨_, .vector b _ (size_le (sizes_supported size ratio).2) (downVector_length ..),
      fun u same => same.drawnNaN ▸ exec_down size ratio (same.operands operands) src⟩
  | up a b src =>
    obtain ⟨size, n, ratio⟩ := checkCode_up.1 checks
    exact ⟨_, .vector b _ (size_le (sizes_supported size ratio).1) (upVector_length ..),
      fun u same => same.drawnNaN ▸ exec_up size ratio (same.operands operands) src⟩
  | rdrs a b i =>
    obtain ⟨ha, hb, ratio, index⟩ := checkCode_rdrs.1 checks
    exact ⟨_, .scalar _, fun u _ => exec_rdrs ha hb ratio index u⟩
  | rdbf a i =>
    obtain ⟨readable, ha, index⟩ := checkCode_rdbf.1 checks
    exact ⟨_, .scalar _, fun u _ => exec_rdbf readable ha index u⟩

/-- A success records no model fault (R90). -/
theorem Writes.faults {write : State → State} (writes : Writes write) (s : State) : (write s).faults = s.faults := by
  cases writes <;> rfl

/-- A success leaves the same OLEN, the same result words and, where OLEN is 0, the same RESULT pair in every state
(R26, R92). -/
theorem Writes.results {write : State → State} (writes : Writes write) (s u : State) :
    (write s).status.olen = (write u).status.olen ∧
      (∀ k < (write s).status.olen.toNat, (write s).mem.word (0x2000 + 8 * k) = (write u).mem.word (0x2000 + 8 * k)) ∧
      ((write s).status.olen = 0#9 →
        (write s).resultLo = (write u).resultLo ∧ (write s).resultHi = (write u).resultHi) := by
  cases writes with
  | scalar v => exact ⟨rfl, fun k hk => absurd hk (Nat.not_lt_zero k), fun _ => ⟨rfl, rfl⟩⟩
  | vector l xs size length =>
    have olen : (finishVector (2 ^ l) xs s).status.olen.toNat = 2 ^ l := Nat.mod_eq_of_lt (by omega)
    refine ⟨rfl, fun k hk => ?_, fun zero => ?_⟩
    · rw [olen, ← length] at hk
      rw [finishVector_mem, finishVector_mem, Memory.word_store_vector _ _ _ hk, Memory.word_store_vector _ _ _ hk]
    · rw [zero] at olen
      exact absurd olen.symm (Nat.two_pow_pos l).ne'

/-! ### The same outcome -/

/-- The flags that report an outcome are the same (R93). -/
structure SameOutcome (s u : State) : Prop where
  busy : s.status.busy = u.status.busy
  done : s.status.done = u.status.done
  err : s.status.err = u.status.err
  errcode : s.status.errcode = u.status.errcode

/-- Two reports of one error are the same outcome if DONE was the same. -/
theorem ErrorReported.sameOutcome {code : BitVec 4} {s s' u u' : State} (hs : ErrorReported code s s')
    (hu : ErrorReported code u u') (done : s.status.done = u.status.done) : SameOutcome s' u' :=
  ⟨hs.busy.trans hu.busy.symm, by rw [hs.done, hu.done, done], hs.err.trans hu.err.symm,
    hs.errcode.trans hu.errcode.symm⟩

/-- One success from two states is the same outcome if ERR and ERRCODE were the same. -/
theorem Writes.sameOutcome {write : State → State} (writes : Writes write) {s u : State}
    (err : s.status.err = u.status.err) (errcode : s.status.errcode = u.status.errcode) :
    SameOutcome (write s) (write u) := by
  cases writes <;> exact ⟨rfl, rfl, err, errcode⟩

end Sys2Proof.Claims

namespace Sys2Proof.Proofs

open Sys2Proof.Machine Sys2Proof.Claims

/-- Settles O8: the turn ends by the code of the word's first failing check. -/
theorem firstFailingCheckIsReported : Obligations.FirstFailingCheckIsReported := by
  unfold Obligations.FirstFailingCheckIsReported
  intro s busy
  obtain ⟨t, turn, ends⟩ := engineTurn_endsBy busy
  refine ⟨fun code failing => ⟨t, turn, ?_⟩, fun passing => ⟨t, turn, ?_⟩⟩
  · rw [failing] at ends
    exact ends.errorReported
  · rw [passing] at ends
    exact ends.noError

/-- Settles O16: all that such a command does is to record the fault. -/
theorem uninitialisedOperandWritesNothing : Obligations.UninitialisedOperandWritesNothing := by
  unfold Obligations.UninitialisedOperandWritesNothing
  intro s i checks missing
  exact ⟨_, exec_of_missing checks missing, rfl, rfl, rfl, ⟨rfl, rfl, rfl, rfl, rfl, fun _ => rfl, rfl⟩, rfl, rfl, rfl⟩

/-- Settles O54: with one word and one snapshot both report the same error, or both miss an operand and stay BUSY, or
both make the same change. -/
theorem resultsDependOnlyOnCommandAndSnapshot : Obligations.ResultsDependOnlyOnCommandAndSnapshot := by
  unfold Obligations.ResultsDependOnlyOnCommandAndSnapshot
  intro s₁ s₂ t₁ t₂ cmd snap draws busy₁ busy₂ empty₁ empty₂ err done errcode next₁ next₂
  rw [step_noTurn empty₁] at next₁
  rw [step_noTurn empty₂] at next₂
  cases code : wordCode s₁.cmd with
  | some code' =>
    obtain ⟨u₁, turn₁, ends₁⟩ := engineTurn_endsBy busy₁
    obtain ⟨u₂, turn₂, ends₂⟩ := engineTurn_endsBy busy₂
    rw [code] at ends₁
    rw [← cmd, code] at ends₂
    cases turn₁.symm.trans next₁
    cases turn₂.symm.trans next₂
    have outcome := ends₁.errorReported.sameOutcome ends₂.errorReported done
    exact ⟨outcome.busy, outcome.done, outcome.err, outcome.errcode, nofun⟩
  | none =>
    obtain ⟨i, word, checks⟩ := wordCode_eq_none.1 code
    rw [engineTurn_of_decode busy₁ word] at next₁
    rw [engineTurn_of_decode busy₂ (cmd ▸ word)] at next₂
    have same : SameInputs s₁ s₂ := ⟨snap.symm, draws.symm⟩
    by_cases missing : MissingOperand s₁ i
    · cases (exec_of_missing checks missing).symm.trans next₁
      cases (exec_of_missing checks (same.missing missing)).symm.trans next₂
      exact ⟨busy₁.trans busy₂.symm, done, err, errcode, fun _ idle => by simp [busy₁] at idle⟩
    · obtain ⟨write, writes, runs⟩ := exec_of_present checks missing
      cases (runs s₁ ⟨rfl, rfl⟩).symm.trans next₁
      cases (runs s₂ same).symm.trans next₂
      have outcome := writes.sameOutcome err errcode
      exact ⟨outcome.busy, outcome.done, outcome.err, outcome.errcode, fun _ _ => writes.results s₁ s₂⟩

end Sys2Proof.Proofs
end

section
/-! PROOFS. What ends a pending command, when it ends, and what an idle engine leaves (R91, R92, R101, R102, R112,
R113). -/

namespace Sys2Proof

/-- The four bytes of a word put together again are the word (R39, R56). -/
theorem decodeBytes_bytesOfWord (w : Word) : decodeBytes (bytesOfWord w) = decode w := by
  have joined : w.extractLsb' 24 8 ++ w.extractLsb' 16 8 ++ w.extractLsb' 8 8 ++ w.extractLsb' 0 8 = w := by
    apply BitVec.eq_of_getLsbD_eq
    intro i hi
    simp only [BitVec.getLsbD_append, BitVec.getLsbD_extractLsb']
    interval_cases i <;> simp
  exact congrArg decode joined

/-- The opcode table's reading of a row's word is the decoder's (R62). -/
theorem decode_of_decodeTableWord {nbits w : Nat} {i : Instr} (h : decodeTableWord nbits w = some i) :
    decode (tableWord nbits w) = .ok i := by
  rw [decodeTableWord, decodeBytes_bytesOfWord] at h
  cases word : decode (tableWord nbits w) with
  | ok j => simpa [word] using h
  | error r => simp [word] at h

end Sys2Proof

namespace Sys2Proof.Machine

/-- While BUSY = 0 the engine's turn changes nothing (R101). -/
theorem engineTurn_idle {s : State} (idle : s.status.busy = false) : engineTurn s = .next s := by
  simp [engineTurn, idle]

/-- The step after a placed word is the engine's turn in the state after its acceptance (R91). -/
theorem step_withFetchWord (s : State) (nbits w : Nat) :
    step (s.withFetchWord nbits w) = engineTurn (s.accept (tableWord nbits w)) :=
  step_engine (s := s.withFetchWord nbits w) rfl

/-- One more step of a run. -/
theorem run_succ_of_step {s t : State} (next : step s = .next t) (k : Nat) :
    core.run (k + 1) s = core.run k t := by
  have turn : core.step s = .next t := next
  simp only [Host.Core.run, turn]

/-- A completion clears BUSY or records a missing operand (R90, R92). -/
theorem Ends.idle_or_fault {s t : State} (ends : Ends s t) :
    t.status.busy = false ∨ t.faults.uninitOperand = true := by
  cases ends with
  | error e => exact .inl rfl
  | fault => exact .inr rfl
  | vector l xs size length => exact .inl rfl
  | scalar v => exact .inl rfl

end Sys2Proof.Machine

namespace Sys2Proof.Claims

open Sys2Proof.Machine

/-- An acceptance, the turn in which it happens left out (R91). -/
theorem accepted_accept (w : Word) (s : State) : Accepted w s (s.accept w) :=
  { accepted_turn w s s.script 0 with }

/-- While a command is pending an access of the window takes its turn and leaves the command pending (R36, R92). -/
theorem step_access {s : State} {e : Event} {rest : List Event} (turn : s.script = e :: rest) (access : InWindow e)
    (busy : s.status.busy = true) : ∃ t, step s = .next t ∧ t.script = rest ∧ t.status.busy = true := by
  cases e with
  | read master a w =>
    obtain ⟨-, status, -, -, -, -, -, script⟩ := (hostRead_ends master a w (s.setScript rest)).frame
    exact ⟨_, step_read turn access, script, by rw [status]; exact busy⟩
  | write master a w v =>
    cases taken : admitted a w with
    | false => exact ⟨_, step_refusedWrite turn access taken, rfl, busy⟩
    | true =>
      have ends := writeTarget_ends a w v (s.setScript rest)
      obtain ⟨-, -, -, script, -⟩ := ends.frame
      obtain ⟨pending, -⟩ := ends.frame_of_busy busy
      exact ⟨_, step_write turn access taken, script, pending⟩
  | reset => exact access.elim
  | engine => exact access.elim

/-- After a script of accesses the engine has the turn, with the command still pending, and completes it or records a
missing operand (R92, R112). -/
theorem run_accesses {es : List Event} {s : State} (script : s.script = es) (accesses : ∀ e ∈ es, InWindow e)
    (busy : s.status.busy = true) : ∃ t : State, core.run (es.length + 1) s = .next t ∧ t.script = [] ∧
      (t.status.busy = false ∨ t.faults.uninitOperand = true) := by
  induction es generalizing s with
  | nil =>
    obtain ⟨t, turn, ends⟩ := completion_ends s
    have next : step s = .next t := by rw [step_noTurn script, engineTurn, if_pos busy, turn]
    obtain ⟨-, -, -, kept, -⟩ := ends.frame
    exact ⟨t, run_succ_of_step next 0, kept.trans script, ends.idle_or_fault⟩
  | cons e es ih =>
    obtain ⟨access, others⟩ := List.forall_mem_cons.1 accesses
    obtain ⟨t, next, script', pending⟩ := step_access script access busy
    rw [List.length_cons, run_succ_of_step next]
    exact ih script' others pending

/-- Where only engine's turns are left, the next one is the engine's, and so are those after it (R113). -/
theorem hostDone_cons {s : State} {e : Event} {rest : List Event} (turn : s.script = e :: rest)
    (done : s.hostDone = true) : e = .engine ∧ (s.setScript rest).hostDone = true := by
  simpa [State.hostDone, turn] using done

end Sys2Proof.Claims

namespace Sys2Proof.Proofs

open Sys2Proof.Machine Sys2Proof.Claims

/-- Settles O51: an access, answered or refused, and an idle turn leave a set BUSY as it is. -/
theorem onlyCompletionOrResetClearsBusy : Obligations.OnlyCompletionOrResetClearsBusy := by
  unfold Obligations.OnlyCompletionOrResetClearsBusy
  intro s t next busy cleared
  have kept : t.status.busy ≠ true := by simp [cleared]
  cases step_moved next with
  | idle _ empty _ _ => exact .inl empty
  | last _ empty _ _ => exact .inl empty
  | skip rest turn _ => exact .inr (.inl ⟨rest, turn⟩)
  | complete rest _ turn _ _ => exact .inr (.inl ⟨rest, turn⟩)
  | reset rest turn => exact .inr (.inr ⟨rest, turn⟩)
  | read master a w rest _ turn place ends =>
    obtain ⟨-, status, -⟩ := ends.frame
    exact absurd ((congrArg Status.busy status).trans busy) kept
  | refusedWrite master a w v rest turn place refused => exact absurd busy kept
  | write master a w v rest u turn place taken ends =>
    obtain ⟨pending, -⟩ := ends.frame_of_busy (s := s.setScript rest) busy
    exact absurd pending kept

/-- Settles O55, by induction on the accesses to come. -/
theorem pendingCommandIsCompleted : Obligations.PendingCommandIsCompleted := by
  unfold Obligations.PendingCommandIsCompleted
  exact fun s busy accesses => run_accesses rfl accesses busy

/-- Settles O7: the placed word's turn is the engine's, and the word's bytes decode as the word does. -/
theorem placedWordIsTheNextCommand : Obligations.PlacedWordIsTheNextCommand := by
  unfold Obligations.PlacedWordIsTheNextCommand
  intro s w i row
  refine ⟨?_, accepted_accept _ s⟩
  rw [step_withFetchWord]
  exact engineTurn_of_decode rfl (decode_of_decodeTableWord row)

/-- Settles O56: whichever turn is next, it is an idle engine's. -/
theorem idleMachineStaysAsItIs : Obligations.IdleMachineStaysAsItIs := by
  unfold Obligations.IdleMachineStaysAsItIs
  intro s idle
  have noTurn (empty : s.script = []) : step s = .next s := by rw [step_noTurn empty, engineTurn_idle idle]
  have engine (rest : List Event) (turn : s.script = .engine :: rest) : step s = .next (s.setScript rest) := by
    rw [step_engine turn, engineTurn_idle (s := s.setScript rest) idle]
  refine ⟨noTurn, engine, fun ended => ?_⟩
  cases script : s.script with
  | nil => exact ⟨s, noTurn script, rfl, ended⟩
  | cons e rest =>
    simp only [State.runEnded, Bool.and_eq_true] at ended
    obtain ⟨⟨done, notBusy⟩, good⟩ := ended
    obtain ⟨rfl, done'⟩ := hostDone_cons script done
    refine ⟨_, engine rest script, rfl, ?_⟩
    simp only [State.runEnded, Bool.and_eq_true]
    exact ⟨⟨done', notBusy⟩, good⟩

end Sys2Proof.Proofs
end

section
/-! PROOFS. The acceptance by a CMD write, and that an access has one effect and one answer, whichever master makes it
(R91, R97, R99). -/

namespace Sys2Proof.Machine

/-- A write's turn in the window, admitted or not (R47). -/
theorem step_hostWrite {s : State} {master a w : Nat} {v : F64} {rest : List Event}
    (turn : s.script = .write master a w v :: rest) (place : a < Config.windowSize) :
    step s = .next (hostWrite master a w v (s.setScript rest)) := by
  simp only [step, nextTurn, turn, runEvent, hostAccess, if_neg (Nat.not_le.2 place)]

/-- A write that takes a next state is in the window (R45). -/
theorem inWindow_of_step_write {s t : State} {master a w : Nat} {v : F64} {rest : List Event}
    (turn : s.script = .write master a w v :: rest) (next : step s = .next t) : a < Config.windowSize := by
  by_contra outside
  rw [step_writeOutside turn (Nat.not_lt.1 outside)] at next
  cases next

/-- The access has one effect on `s` and one answer, whichever master makes it (R97, R99). -/
def MasterBlind (s : State) (access : Nat → State) : Prop :=
  ∃ (u : State) (x : Answer), u.responses = s.responses ∧ ∀ master, access master = u.respond master x

theorem masterBlind_respond (s : State) (x : Answer) : MasterBlind s (s.respond · x) := ⟨s, x, rfl, fun _ => rfl⟩

theorem masterBlind_refuseAccess (s : State) : MasterBlind s (refuseAccess · s) :=
  ⟨s.recordFault .busError, .busError, rfl, fun _ => rfl⟩

theorem masterBlind_readUnspecified (w : Nat) (s : State) : MasterBlind s (readUnspecified · w s) :=
  ⟨s.nextDraw, unspecified s w, rfl, fun _ => rfl⟩

theorem masterBlind_readResult (v : Word) (s : State) : MasterBlind s (readResult · v s) := by
  unfold readResult
  split
  · exact masterBlind_readUnspecified 4 s
  · exact masterBlind_respond s _

theorem masterBlind_readBuffer (a w : Nat) (s : State) : MasterBlind s (readBuffer · a w s) := by
  unfold readBuffer
  split
  · exact masterBlind_respond s _
  · exact ⟨s.recordFault .uninitRead, .noValue, rfl, fun _ => rfl⟩

theorem masterBlind_readObuf (a w : Nat) (s : State) : MasterBlind s (readObuf · a w s) := by
  unfold readObuf
  split
  · split
    · exact masterBlind_readUnspecified w s
    · exact ⟨s.nextDraw.recordFault .uninitRead, unspecified s w, rfl, fun _ => rfl⟩
  · exact masterBlind_readBuffer a w s

theorem masterBlind_hostRead (a w : Nat) (s : State) : MasterBlind s (hostRead · a w s) := by
  unfold hostRead
  split
  · exact masterBlind_refuseAccess s
  · cases targetOf a with
    | resultLo => exact masterBlind_readResult _ s
    | resultHi => exact masterBlind_readResult _ s
    | ibuf => exact masterBlind_readBuffer a w s
    | obuf => exact masterBlind_readObuf a w s
    | _ => exact masterBlind_respond s _

theorem masterBlind_hostWrite (a w : Nat) (v : F64) (s : State) : MasterBlind s (hostWrite · a w v s) := by
  unfold hostWrite
  split
  · exact masterBlind_refuseAccess s
  · obtain ⟨-, -, -, -, responses, -⟩ := (writeTarget_ends a w v s).frame
    exact ⟨writeTarget a w v s, .written, responses, fun _ => rfl⟩

/-- Two masters get one answer, and leave the same state but for it. -/
theorem MasterBlind.same {s : State} {access : Nat → State} (blind : MasterBlind s access) (m₁ m₂ : Nat) :
    { access m₁ with responses := [] } = { access m₂ with responses := [] } ∧
      ∃ x, (access m₁).responses = ⟨m₁, x⟩ :: s.responses ∧ (access m₂).responses = ⟨m₂, x⟩ :: s.responses := by
  obtain ⟨u, x, responses, accesses⟩ := blind
  rw [accesses, accesses, ← responses]
  exact ⟨rfl, x, rfl, rfl⟩

end Sys2Proof.Machine

namespace Sys2Proof.Proofs

open Sys2Proof.Machine Sys2Proof.Claims

/-- Settles O35: the turn is the word's acceptance and the answer. -/
theorem acceptanceTakesTheSnapshot : Obligations.AcceptanceTakesTheSnapshot := by
  unfold Obligations.AcceptanceTakesTheSnapshot
  intro s master v rest idle turn
  have next : step s = .next (((s.setScript rest).accept (lowHalf v)).respond master .written) := by
    rw [step_write turn (by decide) (by decide), writeTarget_cmd (s := s.setScript rest) idle]
  exact ⟨_, next, accepted_turn (lowHalf v) s rest master, ⟨rfl, rfl, rfl⟩⟩

/-- Settles O57: reads and writes are blind to the master. -/
theorem mastersAreIndistinguishable : Obligations.MastersAreIndistinguishable := by
  unfold Obligations.MastersAreIndistinguishable
  intro s m₁ m₂ a w v rest t₁ t₂ turns
  rcases turns with ⟨next₁, next₂⟩ | ⟨next₁, next₂⟩
  · have place := inWindow_of_step_read rfl next₁
    rw [step_read rfl place] at next₁ next₂
    cases next₁
    cases next₂
    exact (masterBlind_hostRead a w (s.setScript rest)).same m₁ m₂
  · have place := inWindow_of_step_write rfl next₁
    rw [step_hostWrite rfl place] at next₁ next₂
    cases next₁
    cases next₂
    exact (masterBlind_hostWrite a w v (s.setScript rest)).same m₁ m₂

end Sys2Proof.Proofs
end

section
/-! PROOFS. Which model fault each turn records (R34, R41, R90). -/

namespace Sys2Proof.Machine

/-- From `s` to `t` the model faults of which `event` holds are recorded, and no other is recorded or cleared (R90). -/
def Records (event : ModelFault → Prop) (s t : State) : Prop :=
  ∀ f, t.faults.has f = true ↔ s.faults.has f = true ∨ event f

theorem records_none {event : ModelFault → Prop} {s t : State} (same : t.faults = s.faults) (noEvent : ∀ f, ¬ event f) :
    Records event s t := by
  intro f
  simp [same, noEvent f]

theorem records_one {event : ModelFault → Prop} {s t : State} (g : ModelFault) (one : t.faults = s.faults.record g)
    (only : ∀ f, event f ↔ f = g) : Records event s t := by
  intro f
  rw [one, FaultSet.has_record, only f, Bool.or_eq_true, decide_eq_true_eq, eq_comm (a := g)]

/-! ### A read -/

/-- The events of an access of width `w` at offset `a` that reads memory `m`: a bus error, and the read of a buffer half
with a clear mark (R90). -/
def ReadFault (m : Memory) (a w : Nat) : ModelFault → Prop
  | .busError => admitted a w = false
  | .uninitRead => admitted a w = true ∧ (inIbuf a = true ∨ inObuf a = true) ∧ bufferBits m a w = none
  | .uninitOperand => False

/-- A buffer read where every addressed byte is marked records no fault, BUSY or not (R34). -/
theorem hostRead_faults_of_some {s : State} {a w : Nat} {v : F64} (taken : admitted a w = true)
    (place : inIbuf a = true ∨ inObuf a = true) (bits : bufferBits s.mem a w = some v) (master : Nat) :
    (hostRead master a w s).faults = s.faults := by
  rcases place with place | place
  · rw [hostRead_buffer taken (.inl place), readBuffer_of_some bits]
    rfl
  · simp only [hostRead, taken, targetOf_of_obuf place, readObuf, readBuffer, bits]
    cases s.status.busy <;> rfl

/-- A buffer read at a clear mark records UninitRead, BUSY or not (R34, R90). -/
theorem hostRead_faults_of_none {s : State} {a w : Nat} (taken : admitted a w = true)
    (place : inIbuf a = true ∨ inObuf a = true) (bits : bufferBits s.mem a w = none) (master : Nat) :
    (hostRead master a w s).faults = s.faults.record .uninitRead := by
  rcases place with place | place
  · rw [hostRead_buffer taken (.inl place), readBuffer_of_none bits]
    rfl
  · simp only [hostRead, taken, targetOf_of_obuf place, readObuf, readBuffer, bits]
    cases s.status.busy <;> rfl

/-- A read outside the buffers records no fault (R46). -/
theorem hostRead_faults_register {s : State} {a : Nat} (aligned : a % 4 = 0) (notIbuf : ¬ inIbuf a = true)
    (notObuf : ¬ inObuf a = true) (master : Nat) : (hostRead master a 4 s).faults = s.faults := by
  by_cases idle : a = 0x010 ∨ a = 0x014 → s.status.busy = false
  · rw [hostRead_register master aligned notIbuf notObuf idle]
    rfl
  · obtain ⟨place, busy⟩ := Classical.not_imp.1 idle
    rw [hostRead_result_busy place (by simpa using busy)]
    rfl

/-- A read records its events (R90). -/
theorem hostRead_records (master a w : Nat) (s : State) :
    Records (ReadFault s.mem a w) s (hostRead master a w s) := by
  cases addressed a w with
  | refused refused =>
    rw [hostRead_refused refused]
    exact records_one .busError rfl fun f => by cases f <;> simp [ReadFault, refused]
  | buffer taken place =>
    cases bits : bufferBits s.mem a w with
    | some v =>
      exact records_none (hostRead_faults_of_some taken place bits master) fun f => by
        cases f <;> simp [ReadFault, taken, bits]
    | none =>
      exact records_one .uninitRead (hostRead_faults_of_none taken place bits master) fun f => by
        cases f <;> simp [ReadFault, taken, bits, place]
  | register width aligned notIbuf notObuf =>
    subst width
    have taken : admitted a 4 = true := admitted_iff.2 (.inl ⟨rfl, aligned⟩)
    exact records_none (hostRead_faults_register aligned notIbuf notObuf master) fun f => by
      cases f <;> simp [ReadFault, taken, notIbuf, notObuf]

/-- A write records the bus error alone (R41, R90). -/
theorem hostWrite_records (master a w : Nat) (v : F64) (s : State) :
    Records (fun f => f = .busError ∧ admitted a w = false) s (hostWrite master a w v s) := by
  cases taken : admitted a w with
  | false =>
    have refused : hostWrite master a w v s = refuseAccess master s := by simp [hostWrite, taken]
    rw [refused]
    exact records_one .busError rfl fun f => by simp
  | true =>
    have written : hostWrite master a w v s = (writeTarget a w v s).respond master .written := by
      simp [hostWrite, taken]
    obtain ⟨-, -, faults, -⟩ := (writeTarget_ends a w v s).frame
    rw [written]
    exact records_none faults fun f => by simp

end Sys2Proof.Machine

namespace Sys2Proof.Claims

open Sys2Proof.Machine

/-! ### The engine's turn -/

/-- The pending command's checks pass and an operand of it is missing (R90). -/
def OperandFault (s : State) : Prop :=
  s.status.busy = true ∧ ∃ i, decode s.cmd = .ok i ∧ checkCode i = none ∧ MissingOperand s i

/-- The engine's turn records a missing operand alone (R90, R92). -/
theorem engineTurn_records {s t : State} (turn : engineTurn s = .next t) :
    Records (fun f => f = .uninitOperand ∧ OperandFault s) s t := by
  by_cases busy : s.status.busy = true
  · cases code : wordCode s.cmd with
    | some code' =>
      obtain ⟨u, turn', ends⟩ := engineTurn_endsBy busy
      cases turn'.symm.trans turn
      rw [code] at ends
      refine records_none ends.errorReported.rest.faults ?_
      rintro f ⟨-, -, passing⟩
      simp [wordCode_eq_none.2 (passing.imp fun i h => ⟨h.1, h.2.1⟩)] at code
    | none =>
      obtain ⟨i, word, checks⟩ := wordCode_eq_none.1 code
      rw [engineTurn_of_decode busy word] at turn
      by_cases missing : MissingOperand s i
      · cases (exec_of_missing checks missing).symm.trans turn
        have fault : OperandFault s := ⟨busy, i, word, checks, missing⟩
        exact records_one .uninitOperand rfl fun f => by simp [fault]
      · obtain ⟨write, writes, runs⟩ := exec_of_present checks missing
        cases (runs s ⟨rfl, rfl⟩).symm.trans turn
        have noFault : ¬ OperandFault s := by simp [OperandFault, word, missing]
        exact records_none (writes.faults s) fun f => by simp [noFault]
  · cases (engineTurn_idle (by simpa using busy)).symm.trans turn
    exact records_none rfl fun f => by simp [OperandFault, busy]

/-! ### The events of a step -/

/-- The step from `s` is the event of the model fault (R90). -/
def FaultEvent (s : State) : ModelFault → Prop
  | .busError => ∃ master a w rest, ¬ Admits a w ∧
      (s.script = .read master a w :: rest ∨ ∃ v, s.script = .write master a w v :: rest)
  | .uninitRead => ∃ master a w rest, Admits a w ∧ (InIbuf a ∨ InObuf a) ∧ s.script = .read master a w :: rest ∧
      ∃ j < w, s.mem.byte (a + j) = none
  | .uninitOperand => s.status.busy = true ∧ (s.script = [] ∨ ∃ rest, s.script = .engine :: rest) ∧
      ∃ i, decode s.cmd = .ok i ∧ checkCode i = none ∧ MissingOperand s i

theorem admits_iff {a w : Nat} : Admits a w ↔ admitted a w = true := admitted_iff.symm

theorem inBuffers_iff {a : Nat} : InIbuf a ∨ InObuf a ↔ inIbuf a = true ∨ inObuf a = true :=
  or_congr inIbuf_iff.symm inObuf_iff.symm

theorem faultEvent_read {s : State} {master a w : Nat} {rest : List Event} (turn : s.script = .read master a w :: rest)
    (f : ModelFault) : FaultEvent s f ↔ ReadFault s.mem a w f := by
  cases f with
  | busError => simp [FaultEvent, ReadFault, turn, admits_iff]
  | uninitRead =>
    have here : FaultEvent s .uninitRead ↔
        Admits a w ∧ (InIbuf a ∨ InObuf a) ∧ ∃ j < w, s.mem.byte (a + j) = none := by
      simp [FaultEvent, turn]
    rw [here, admits_iff, inBuffers_iff]
    exact and_congr_right fun taken => and_congr_right fun _ => (bufferBits_eq_none taken).symm
  | uninitOperand => simp [FaultEvent, ReadFault, turn]

theorem faultEvent_write {s : State} {master a w : Nat} {v : F64} {rest : List Event}
    (turn : s.script = .write master a w v :: rest) (f : ModelFault) :
    FaultEvent s f ↔ f = .busError ∧ admitted a w = false := by
  cases f <;> simp [FaultEvent, turn, admits_iff]

theorem faultEvent_reset {s : State} {rest : List Event} (turn : s.script = .reset :: rest) (f : ModelFault) :
    ¬ FaultEvent s f := by
  cases f <;> simp [FaultEvent, turn]

theorem faultEvent_engine {s : State} (turn : s.script = [] ∨ ∃ rest, s.script = .engine :: rest) (f : ModelFault) :
    FaultEvent s f ↔ f = .uninitOperand ∧ OperandFault s := by
  rcases turn with turn | ⟨rest, turn⟩
  · cases f <;> simp [FaultEvent, OperandFault, turn]
  · cases f <;> simp [FaultEvent, OperandFault, turn]

/-- A step records its events and clears no fault (R90). -/
theorem step_records {s t : State} (next : step s = .next t) : Records (FaultEvent s) s t := by
  intro f
  cases script : s.script with
  | nil =>
    rw [step_noTurn script] at next
    rw [faultEvent_engine (.inl script)]
    exact engineTurn_records next f
  | cons e rest =>
    cases e with
    | read master a w =>
      rw [step_read script (inWindow_of_step_read script next)] at next
      cases next
      rw [faultEvent_read script]
      exact hostRead_records master a w (s.setScript rest) f
    | write master a w v =>
      rw [step_hostWrite script (inWindow_of_step_write script next)] at next
      cases next
      rw [faultEvent_write script]
      exact hostWrite_records master a w v (s.setScript rest) f
    | reset =>
      cases (step_reset script).symm.trans next
      exact records_none rfl (faultEvent_reset script) f
    | engine =>
      rw [step_engine script] at next
      rw [faultEvent_engine (.inr ⟨rest, script⟩)]
      exact engineTurn_records (s := s.setScript rest) next f

end Sys2Proof.Claims

namespace Sys2Proof.Proofs

open Sys2Proof.Machine Sys2Proof.Claims

/-- Settles O50: a step records its events, fault by fault. -/
theorem modelFaultsAreRecordedExactly : Obligations.ModelFaultsAreRecordedExactly := by
  unfold Obligations.ModelFaultsAreRecordedExactly
  intro s t next
  exact ⟨step_records next .busError, step_records next .uninitRead, step_records next .uninitOperand⟩

end Sys2Proof.Proofs
end

section
/-! PROOFS. The reads that BUSY makes unspecified, and the state after a reset (R27, R30, R102, R103, R108). -/

namespace Sys2Proof.Machine

/-! ### Unspecified reads -/

/-- The RESULT pair takes 32-bit accesses only (R40). -/
theorem width_of_result {a w : Nat} (taken : admitted a w = true) (place : a = 0x010 ∨ a = 0x014) : w = 4 := by
  rw [admitted_iff] at taken
  omega

/-- The free value of the current draw, cut to the width of the read (R108). -/
theorem unspecified_eq_data (s : State) (w : Nat) :
    unspecified s w =
      .data (if w = 8 then Config.busyRead s.draws else (lowHalf (Config.busyRead s.draws)).setWidth 64) := by
  unfold unspecified
  split <;> rfl

/-- A read of OBUF or the RESULT pair while BUSY is answered with the current draw and uses it up, also where it records
UninitRead (R34, R108). -/
theorem hostRead_answers_draw {s : State} {a w : Nat} (taken : admitted a w = true)
    (place : inObuf a = true ∨ a = 0x010 ∨ a = 0x014) (busy : s.status.busy = true) (master : Nat) :
    (hostRead master a w s).draws = s.draws + 1 ∧
      (hostRead master a w s).responses = ⟨master, unspecified s w⟩ :: s.responses := by
  rcases place with place | place
  · rcases hostRead_obuf_busy taken place busy master with read | read
    · exact read ▸ ⟨rfl, rfl⟩
    · exact read ▸ ⟨rfl, rfl⟩
  · obtain rfl := width_of_result taken place
    exact hostRead_result_busy place busy master ▸ ⟨rfl, rfl⟩

end Sys2Proof.Machine

namespace Sys2Proof.Claims

open Sys2Proof.Machine

/-- A reset gives every item its value, whatever the state was (R103). -/
theorem afterReset_platformReset (s : State) : AfterReset (platformReset s) where
  ctrl := show 0#31 ++ flagBit false = 0#32 by decide
  status := show Status.reset.word = 0#32 by decide
  cmd := rfl
  resultLo := rfl
  resultHi := rfl
  marks _ := rfl
  snap _ := rfl
  irq := State.irq_of_not_ie rfl

/-- A reset of the power-on state changes nothing, so the power-on state is one after a reset (R103). -/
theorem afterReset_reset : AfterReset State.reset := afterReset_platformReset State.reset

end Sys2Proof.Claims

namespace Sys2Proof.Proofs

open Sys2Proof.Machine Sys2Proof.Claims

/-- Settles O42: marked or not, the read is answered with the draw; the two widths cut it as the statement says. -/
theorem busyReadsAreFreshDraws : Obligations.BusyReadsAreFreshDraws := by
  unfold Obligations.BusyReadsAreFreshDraws
  intro s master a w rest turn admits busy place
  have taken : admitted a w = true := admitted_iff.2 admits
  have inside : a < 0x4000 := by
    rw [InObuf] at place
    omega
  rw [InObuf, ← inObuf_iff] at place
  have ends := hostRead_ends master a w (s.setScript rest)
  obtain ⟨-, -, -, -, -, -, -, script⟩ := ends.frame
  obtain ⟨draws, responses⟩ := hostRead_answers_draw (s := s.setScript rest) taken place busy master
  rw [unspecified_eq_data] at responses
  refine ⟨_, _, step_read turn inside, sameDevice_of_readEnds ends, script, draws, responses, ?_, ?_⟩
  · rintro rfl
    rfl
  · rintro rfl
    rfl

/-- Settles O46: the reset's turn looks at no item of the state before it. -/
theorem resetGivesEveryItemItsValue : Obligations.ResetGivesEveryItemItsValue := by
  unfold Obligations.ResetGivesEveryItemItsValue
  intro s rest turn
  exact ⟨_, step_reset turn, afterReset_platformReset (s.setScript rest), rfl, rfl, rfl, rfl⟩

/-- Settles O47: the items are those after any reset, and the two reads are answered with their constants. -/
theorem powerOnStateIsAsTheTableSays : Obligations.PowerOnStateIsAsTheTableSays := by
  unfold Obligations.PowerOnStateIsAsTheTableSays
  exact ⟨afterReset_reset, rfl, ⟨_, step_read rfl (by decide), rfl⟩, ⟨_, step_read rfl (by decide), rfl⟩⟩

/-- Settles O49: no byte is marked and no flag is set. -/
theorem resetHasTheInvariant : Obligations.ResetHasTheInvariant := by
  unfold Obligations.ResetHasTheInvariant
  exact State.inv_reset

end Sys2Proof.Proofs
end

section
/-! PROOFS. The round trip of encoder and decoder: a word that a row accepts and the command that the row names for it
determine each other (R56, R61, R62). -/

namespace Sys2Proof

/-! ### The operands and their fields -/

/-- A value that fits a size field is read back from it (R58). -/
theorem toNat_ofNat_of_sizeFits {l : Nat} (fits : sizeFits l = true) : (BitVec.ofNat 4 l).toNat = l := by
  rw [BitVec.toNat_ofNat, Nat.mod_eq_of_lt (of_decide_eq_true fits)]

/-- A value that fits IDX is read back from it (R60). -/
theorem toNat_ofNat_of_indexFits {i : Nat} (fits : indexFits i = true) : (BitVec.ofNat 8 i).toNat = i := by
  rw [BitVec.toNat_ofNat, Nat.mod_eq_of_lt (of_decide_eq_true fits)]

@[simp] theorem sizeFits_toNat (b : BitVec 4) : sizeFits b.toNat = true := decide_eq_true b.isLt

@[simp] theorem indexFits_toNat (b : BitVec 8) : indexFits b.toNat = true := decide_eq_true b.isLt

@[simp] theorem BufSel.ofBit_bit (src : BufSel) : BufSel.ofBit src.bit = src := by cases src <;> rfl

/-- SRC is one bit, so the buffer keeps all of it (R59). -/
@[simp] theorem BufSel.bit_ofBit (b : BitVec 1) : (BufSel.ofBit b).bit = b := by
  obtain rfl | rfl := BitVec.eq_zero_or_eq_one b <;> rfl

/-! ### A row's command and its fields -/

/-- A row reads a well-formed command back from the command's own fields (R62). -/
theorem Instr.command_fields {i : Instr} (wf : i.wellFormed = true) : i.opcode.command i.fields = i := by
  cases i with
  | fwd sza src | inv sza src =>
    simp only [Instr.opcode, Instr.fields, Opcode.command, toNat_ofNat_of_sizeFits wf, BufSel.ofBit_bit]
  | down sza szb src | up sza szb src =>
    simp only [Instr.wellFormed, Bool.and_eq_true] at wf
    obtain ⟨fitsA, fitsB⟩ := wf
    simp only [Instr.opcode, Instr.fields, Opcode.command, toNat_ofNat_of_sizeFits fitsA, toNat_ofNat_of_sizeFits fitsB,
      BufSel.ofBit_bit]
  | rdrs sza szb idx =>
    simp only [Instr.wellFormed, Bool.and_eq_true] at wf
    obtain ⟨⟨fitsA, fitsB⟩, fitsI⟩ := wf
    simp only [Instr.opcode, Instr.fields, Opcode.command, toNat_ofNat_of_sizeFits fitsA, toNat_ofNat_of_sizeFits fitsB,
      toNat_ofNat_of_indexFits fitsI]
  | rdbf sza idx =>
    simp only [Instr.wellFormed, Bool.and_eq_true] at wf
    obtain ⟨fitsA, fitsI⟩ := wf
    simp only [Instr.opcode, Instr.fields, Opcode.command, toNat_ofNat_of_sizeFits fitsA,
      toNat_ofNat_of_indexFits fitsI]

/-- Every operand that a row cuts out of a word fits its field. -/
theorem Opcode.wellFormed_command (o : Opcode) (f : Fields) : (o.command f).wellFormed = true := by
  cases o <;> simp [Opcode.command, Instr.wellFormed]

/-- The command that a row names for fields it accepts has those fields: the unused ones are 0 on both sides (R61). -/
theorem Opcode.fields_command {o : Opcode} {f : Fields} (op : f.op = o.code) (unused : o.UnusedZero f)
    (reserved : f.reserved = 0#11) : (o.command f).fields = f := by
  obtain ⟨_, sza, szb, idx, src, _⟩ := f
  obtain rfl : _ = o.code := op
  obtain rfl : _ = 0#11 := reserved
  cases o with
  | fwd | inv =>
    obtain ⟨rfl, rfl⟩ : szb = 0#4 ∧ idx = 0#8 := unused
    simp [Opcode.command, Instr.fields, Opcode.code]
  | down | up =>
    obtain rfl : idx = 0#8 := unused
    simp [Opcode.command, Instr.fields, Opcode.code]
  | rdrs =>
    obtain rfl : src = 0#1 := unused
    simp [Opcode.command, Instr.fields, Opcode.code]
  | rdbf =>
    obtain ⟨rfl, rfl⟩ : szb = 0#4 ∧ src = 0#1 := unused
    simp [Opcode.command, Instr.fields, Opcode.code]

/-! ### The decoder by rows -/

/-- The word of a command is accepted by the command's row (R61). -/
theorem Instr.accepts_encode (i : Instr) : i.opcode.accepts (encode i) = true := by
  rw [Opcode.accepts, beq_iff_eq]
  cases i with
  | fwd sza src => exact Laws.RowMatch.fwd sza src
  | inv sza src => exact Laws.RowMatch.inv sza src
  | down sza szb src => exact Laws.RowMatch.down sza szb src
  | up sza szb src => exact Laws.RowMatch.up sza szb src
  | rdrs sza szb idx => exact Laws.RowMatch.rdrs sza szb idx
  | rdbf sza idx => exact Laws.RowMatch.rdbf sza idx

/-- What the decoder names is the command of a row that accepts the word (R62). -/
theorem exists_accepts_of_decode {w : Word} {i : Instr} (h : decode w = .ok i) :
    ∃ o : Opcode, o.accepts w = true ∧ o.command (fieldsOf w) = i := by
  rw [decode] at h
  cases found : Opcode.all.find? (fun o => o.accepts w) with
  | some o =>
    rw [found] at h
    exact ⟨o, List.find?_some (p := fun o : Opcode => o.accepts w) found, Except.ok.inj h⟩
  | none => simp [found] at h

/-- The decoder names the command of the row that accepts the word: some row is found, and no other accepts it (R61,
R62). -/
theorem decode_of_accepts {o : Opcode} {w : Word} (accepts : o.accepts w = true) :
    decode w = .ok (o.command (fieldsOf w)) := by
  have wf : wellFormedWord w = true := wellFormedWord_iff.2 ⟨o, accepts⟩
  cases word : decode w with
  | ok i =>
    obtain ⟨p, acceptsP, rfl⟩ := exists_accepts_of_decode word
    rw [Opcode.eq_of_accepts accepts acceptsP]
  | error r => simp [wellFormedWord, word] at wf

end Sys2Proof

namespace Sys2Proof.Proofs

/-- Settles O1: the command's own row accepts its word, so that row reads the operands, each of which fits its field. -/
theorem decodeGivesBackEveryEncodedCommand : Obligations.DecodeGivesBackEveryEncodedCommand := by
  unfold Obligations.DecodeGivesBackEveryEncodedCommand
  intro i wf
  rw [decode_of_accepts i.accepts_encode, encode, Laws.fieldsOf_word, Instr.command_fields wf]

/-- Settles O2: the row that accepts the word fixes every field that the command does not carry. -/
theorem encodeGivesBackEveryDecodedWord : Obligations.EncodeGivesBackEveryDecodedWord := by
  unfold Obligations.EncodeGivesBackEveryDecodedWord
  intro w i word
  obtain ⟨o, accepts, rfl⟩ := exists_accepts_of_decode word
  obtain ⟨op, unused, reserved⟩ := (o.accepts_iff_fields w).1 accepts
  refine ⟨o.wellFormed_command _, ?_⟩
  rw [encode, Opcode.fields_command op unused reserved, word_fieldsOf]

/-- Settles O4, by running the decoder on each word. -/
theorem writtenOutWordsDecode : Obligations.WrittenOutWordsDecode := by
  unfold Obligations.WrittenOutWordsDecode
  decide

end Sys2Proof.Proofs
end
